-- ==== Sys2Proof/Word.lean ====
section
/-! DEFINITION. The plainest types of the model: octets, the two subscriptions, cell keys, and a pair of like things,
one for each subscription (spec 00_scope.md 3.3, 5). -/

namespace Sys2Proof

/-- One octet of a frame (11.6). -/
abbrev Byte := BitVec 8

/-- The octets of a payload or of a message body, first octet first. -/
abbrev Octets := List Byte

/-- The two subscriptions (00_scope.md 3.3). A subscription field that may name neither is an `Option Sub`. -/
inductive Sub where
  | A | B
deriving DecidableEq, Repr

/-- "The other subscription" is B when A is meant, and A when B is meant (00_scope.md 3.3). -/
def Sub.other : Sub → Sub
  | .A => .B
  | .B => .A

/-- The code of a subscription in events and frames: 0 for A, 1 for B (11.6). -/
def Sub.code : Sub → Nat
  | .A => 0
  | .B => 1

/-- A cell key names a cell by channel and cell code (00_scope.md 5). The numbers are those that arrived; a rule that
takes a key tests its range. -/
structure Key where
  channel : Nat
  code : Nat
deriving DecidableEq, Repr

/-- One thing for subscription A and one for B. -/
structure Two (α : Type) where
  a : α
  b : α
deriving DecidableEq, Repr

def Two.get {α : Type} (t : Two α) : Sub → α
  | .A => t.a
  | .B => t.b

def Two.set {α : Type} (t : Two α) (s : Sub) (x : α) : Two α :=
  match s with
  | .A => { t with a := x }
  | .B => { t with b := x }

@[simp] theorem Two.get_set_same {α : Type} (t : Two α) (s : Sub) (x : α) : (t.set s x).get s = x := by
  cases s <;> rfl

@[simp] theorem Two.get_set_other {α : Type} (t : Two α) (s : Sub) (x : α) : (t.set s x).get s.other = t.get s.other := by
  cases s <;> rfl

@[simp] theorem Two.get_other_set {α : Type} (t : Two α) (s : Sub) (x : α) : (t.set s.other x).get s = t.get s := by
  cases s <;> rfl

end Sys2Proof
end

