-- ==== Sys2Proof/Syntax.lean ====
section
/-! DEFINITION. The commands: one constructor of `Instr` for each row of spec/opcode_table.json. The operands are the
fields of the frame, request or event that the row's rule names, already taken out of its octets (log entry 25). A field
that the spec lets arrive with a value it does not define is an `Option`: none stands for such a value. -/

namespace Sys2Proof

/-- Kind of an identity entry or of a page item (R2, R99). -/
inductive IdKind where
  | permanent | temporary
deriving DecidableEq, Repr

/-- Bearer class (R129). -/
inductive BearerClass where
  | voice | text | signal | data
deriving DecidableEq, Repr

/-- Bearer state (R129). -/
inductive BearerState where
  | idle | active | held
deriving DecidableEq, Repr

/-- Event class (R177, R180). -/
inductive EventClass where
  | suppressed | routine | urgent
deriving DecidableEq, Repr

/-- Occupancy mode of GLOBAL (R161). -/
inductive OccMode where
  | realtime | accumulate
deriving DecidableEq, Repr

/-- Owner of a claim: a subscription, or COMMON, which serves both (R35). -/
inductive Owner where
  | sub (s : Sub)
  | common
deriving DecidableEq, Repr

/-- One item of a PAGE (R99). A PERMANENT value is `digits`, a TEMPORARY value is `number`. -/
structure PageItem where
  kind : Option IdKind
  digits : List Nat
  number : Nat
  base : Nat
  span : Nat
  follows : Nat
  ref : Nat
deriving DecidableEq, Repr

/-- One cell of a MEAS_REPORT (R76): a key and a raw level. -/
structure RawCell where
  key : Key
  level : Nat
deriving DecidableEq, Repr

/-- Purpose of an ACQ_RESULT (R107). -/
inductive AcqPurpose where
  | reacquire | search
deriving DecidableEq, Repr

/-- The fields of an ACQ_RESULT (R107). `key` is the found cell's key, or the named cell's key of a REACQUIRE that did
not find it; `barred`, `tCell`, `g` and `area` count for a found cell only. -/
structure AcqResult where
  owner : Option Owner
  purpose : Option AcqPurpose
  found : Bool
  key : Key
  barred : Bool
  tCell : Nat
  g : Nat
  area : Nat
deriving DecidableEq, Repr

/-- Status of a SYNC_STATUS (R114). -/
inductive SyncResult where
  | ok | fail
deriving DecidableEq, Repr

/-- A text segment as it arrives (R145, R147): sender digits, reference, index, total, service code and payload. -/
structure RawSegment where
  sender : List Nat
  reference : Nat
  index : Nat
  total : Nat
  service : Nat
  payload : Octets
deriving DecidableEq, Repr

/-- A GLOBAL entry as a TABLE_WRITE carries it (R21, R161), not yet clamped. -/
structure GlobalWrite where
  lead : Int
  drift : Int
  depth : Int
  mode : Option OccMode
deriving DecidableEq, Repr

/-- A PARAM entry as a TABLE_WRITE carries it (R4), not yet clamped. -/
structure ParamWrite where
  kIdle : Int
  kConn : Int
  hysteresis : Int
  weakDeclare : Int
  clearGap : Int
  reselCount : Int
  hoMargin : Int
  timeToTrigger : Int
  staleLimit : Int
  starvation : Int
  penalty : Int
  prefCycle : Int
  gapPeriod : Int
  connectGuard : Int
  reassembly : Int
  screenLen : Int
  areaCode : Int
  discovery : Bool
  protectCall : Bool
  acceptLoop : Bool
deriving DecidableEq, Repr

/-- An IDENTITY entry as a TABLE_WRITE carries it (R2). -/
structure IdentityWrite where
  kind : Option IdKind
  digits : List Nat
  number : Nat
  valid : Bool
deriving DecidableEq, Repr

/-- A BEARER entry as a TABLE_WRITE carries it (R130). -/
structure BearerWrite where
  owner : Option Sub
  cls : Option BearerClass
  state : Option BearerState
deriving DecidableEq, Repr

/-- The commands, in the table's order. `tag` is the tag of a management request (R176); `first` the first index of a
table request; `s` a subscription field (none: it names neither A nor B). -/
inductive Instr where
  /-- PORST_N is asserted and released (R34). -/
  | powerOnReset
  /-- The LINK_READY input takes the given level (R173). -/
  | linkReadyChange (asserted : Bool)
  /-- The drawn length of a sleep-counted frame elapses (R20). -/
  | sleepBoundary
  /-- FRAME_MARK carrying a frame number (R28). -/
  | frameMark (fn : Nat)
  /-- READY from the front end (R25). -/
  | ready
  /-- The sleep tick of the wake instant is reached (R23). -/
  | wakeInstant
  /-- The mark watchdog runs out (R32). -/
  | markWatchdogExpiry
  /-- A granted frame ends while WARMING without READY (R26). -/
  | warmUpFailure
  /-- The connect guard countdown of `s` reaches 0 (R12). -/
  | connectGuardExpiry (s : Sub)
  /-- The handover guard countdown reaches 0 (R119). -/
  | handoverGuardExpiry
  /-- The REACQUIRE of `s` is found at its budget of 32 granted frames (R50). -/
  | reacquireBudgetSpent (s : Sub)
  /-- The countdown of the open group in group record `record` reaches 0 (R156). -/
  | groupExpiry (record : Nat)
  /-- The HXU takes the Cell Table's notice of an uncorrectable target entry (R124). -/
  | targetDamageNotice
  /-- One codec period, with the codec's uplink voice frame (R164). -/
  | codecPeriod (payload : Octets)
  /-- A PAGE read for `s` in the frame `fn` (R98). -/
  | page (s : Option Sub) (fn : Nat) (items : List PageItem)
  /-- A SUMMARY of a cell (R104). -/
  | summary (key : Key) (tCell : Nat) (g : Nat) (area : Nat) (barred : Bool)
  /-- A MEAS_REPORT for `s`, measured in frame `fn` (R76). -/
  | measReport (s : Option Sub) (fn : Nat) (cells : List RawCell)
  /-- An ACQ_RESULT (R107). -/
  | acqResult (r : AcqResult)
  /-- A SYNC_STATUS; `status` none: neither OK nor FAIL (R114). -/
  | syncStatus (s : Option Sub) (key : Key) (status : Option SyncResult) (timing : Nat)
  /-- An IDLE_TEXT received in frame `fn` (R147). -/
  | idleText (s : Option Sub) (fn : Nat) (seg : RawSegment)
  /-- Downlink CONTROL, LINK_GRANT, with the message body that is forwarded (R13, R135). -/
  | linkGrant (s : Option Sub) (body : Octets)
  /-- Downlink CONTROL, LINK_RELEASE (R13, R135). -/
  | linkRelease (s : Option Sub) (body : Octets)
  /-- Downlink CONTROL, HANDOVER_ORDER, with its guard in frames (R115). -/
  | handoverOrder (s : Option Sub) (target : Key) (guard : Nat)
  /-- Downlink CONTROL, LOOP_ORDER: CLOSE when `close` is set, else OPEN (R168). -/
  | loopOrder (s : Option Sub) (close : Bool)
  /-- Downlink CONTROL with another message code (R135). -/
  | downlinkControlOther (s : Option Sub) (code : Nat) (body : Octets)
  /-- Downlink TRAFFIC (R132). `text` is the payload read as a text segment, looked at on a TEXT bearer only; none: it
  does not read as one. -/
  | downlinkTraffic (s : Option Sub) (bearer : Nat) (seq : Nat) (payload : Octets) (text : Option RawSegment)
  /-- An AL frame, octet by octet with its frame check, that is not taken (R174). -/
  | alFrameRejected (octets : Octets)
  /-- Uplink TRAFFIC from the AL (R138). -/
  | uplinkTraffic (s : Option Sub) (bearer : Nat) (payload : Octets)
  /-- Uplink CONTROL, LINK_REQUEST (R11). -/
  | linkRequest (s : Option Sub) (body : Octets)
  /-- Uplink CONTROL with another message (R138). -/
  | uplinkControlOther (s : Option Sub) (code : Nat) (body : Octets)
  /-- TABLE_WRITE of GLOBAL (R21, R161). -/
  | tableWriteGlobal (tag : Nat) (first : Nat) (entries : List GlobalWrite)
  /-- TABLE_WRITE of PARAM (R5). -/
  | tableWriteParam (tag : Nat) (first : Nat) (entries : List ParamWrite)
  /-- TABLE_WRITE of IDENTITY (R2). -/
  | tableWriteIdentity (tag : Nat) (first : Nat) (entries : List IdentityWrite)
  /-- TABLE_WRITE of SCREEN: words of 16 codes (R136). -/
  | tableWriteScreen (tag : Nat) (first : Nat) (words : List (BitVec 16))
  /-- TABLE_WRITE of BEARER (R130). -/
  | tableWriteBearer (tag : Nat) (first : Nat) (entries : List BearerWrite)
  /-- TABLE_WRITE of EVENT_CLASS; none: not one of the three classes (R177). -/
  | tableWriteEventClass (tag : Nat) (first : Nat) (classes : List (Option EventClass))
  /-- TABLE_READ of table code `table`; `first` none: NEXT (R178). -/
  | tableRead (tag : Nat) (table : Nat) (first : Option Nat) (count : Nat)
  /-- CELL_PUT with an offset in half-dB (R69). -/
  | cellPut (tag : Nat) (key : Key) (barred : Bool) (offset : Int)
  /-- CELL_DROP (R70). -/
  | cellDrop (tag : Nat) (key : Key)
  /-- SUB_ATTACH, with or without an initial cell key (R9). -/
  | subAttach (tag : Nat) (s : Option Sub) (initial : Option Key)
  /-- SUB_DETACH (R17). -/
  | subDetach (tag : Nat) (s : Option Sub)
  /-- TEXT_TAKE (R157). -/
  | textTake (tag : Nat)
  /-- STATS_TAKE with its clear option as it arrives (R185). -/
  | statsTake (tag : Nat) (clear : Nat)
  /-- VOICE_LOOP: on, off, or neither (R167). -/
  | voiceLoop (tag : Nat) (setting : Option Bool)
  /-- CHECK_INJECT of table code `table`, entry `index`, `positions` wrong positions (R184). -/
  | checkInject (tag : Nat) (table : Nat) (index : Nat) (positions : Nat)
  /-- WARM_RESET (R179). -/
  | warmReset (tag : Nat)
  /-- A management request with request code `code` that is structurally wrong (R176). -/
  | malformedRequest (tag : Nat) (code : Nat)
  /-- The transmission of the AL frame in progress completes (R175). -/
  | alTransmitDone
  /-- TABLE_WRITE with a table code that a TABLE_WRITE may not address (R177). -/
  | tableWriteNoSuchTable (tag : Nat) (table : Nat)
deriving DecidableEq, Repr

end Sys2Proof
end

