-- ==== Sys2Proof/Config.lean ====
section
/-! DEFINITION. The free values: what the spec leaves open and the model does not choose. -/

namespace Sys2Proof

/-- FREE VALUE (log entry 8). Which free slot a stored segment takes: "a free slot, chosen from the free slots by the
TXS" (R149). The n-th choice takes the free slot at position `freeSlotPick n` modulo the number of free slots. -/
opaque Config.freeSlotPick : Nat → Nat

end Sys2Proof
end

