-- ==== Sys2Proof/Machine/State.lean ====
section
/-! DEFINITION. The state of the ZL-2410: every piece of state that chapters 1 to 11 give the twelve blocks, as plain
data, with the value each takes at power-on reset. INVENTORY.md lists each field with its rule. -/

namespace Sys2Proof.Machine

/-- The block stops for nothing: front-end and table failures are events and marks (R26, R32, R182). No constructor. -/
inductive Fault where
deriving DecidableEq, Repr

/-- Why a command has no meaning. -/
inductive Refusal where
  /-- Raised by an arm of `exec` for a command that the model has not reached; safe: nothing is claimed of it. No arm
  raises it. -/
  | notModelled (mnemonic : String)
deriving DecidableEq, Repr

/-! ## Frame Timebase (chapter 2) -/

/-- Front-end power state (2.3). -/
inductive Power where
  | off | warming | on
deriving DecidableEq, Repr

/-- Where the end of the current frame comes from (R19): a drawn length in sleep ticks, or the next FRAME_MARK. -/
inductive Counting where
  | sleep (len : Nat)
  | marks
deriving DecidableEq, Repr

/-- Claim kinds in the order of R41's table, from HANDOVER_EXEC down to SEARCH. -/
inductive ClaimKind where
  | handoverExec | reacquire | pageWatch | delivery | reply | measGap | connected | search
deriving DecidableEq, Repr

/-- A GRANT (R43): frame, owner, purpose and cell key. `serial` names the timed claim it serves (none: a standing claim);
`tuneAway` holds, for a watch at priority 5 over the other subscription's call, the starvation limit reached (R48). -/
structure Grant where
  fn : Nat
  owner : Owner
  purpose : ClaimKind
  key : Option Key
  serial : Option Nat
  tuneAway : Option Nat
deriving DecidableEq, Repr

/-- FTB counters (R33). -/
structure FtbCounters where
  strays : Nat := 0
  slips : Nat := 0
  discontinuities : Nat := 0
deriving DecidableEq, Repr

structure Ftb where
  /-- FN (R19). -/
  fn : Nat
  /-- Sleep-tick accumulator r (R20). -/
  acc : Nat
  power : Power
  counting : Counting
  /-- Sleep ticks elapsed since the current frame began (e of R29). -/
  elapsed : Nat
  /-- The held GRANT (R24). -/
  held : Option Grant
  /-- First-mark comparison pending (R25, R28). -/
  comparePending : Bool
  /-- Ticks left of the mark watchdog, none while it is stopped (R32). -/
  watchdog : Option Nat
  /-- Wake instant, in ticks from the start of the current frame (R22). -/
  wake : Option Nat
  cnt : FtbCounters
deriving DecidableEq, Repr

/-! ## Radio Time Arbiter (chapter 3) -/

/-- An item of a REPLY (R35, R150). -/
inductive ReplyItem where
  | textAck (s : Sub) (reference index : Nat)
  | refuseSegment (s : Sub) (cause reference index : Nat)
  | refusePage (s : Sub) (itemRef : Nat)
  | storeReady (s : Sub)
deriving DecidableEq, Repr

/-- The origin field of a claim (R35). -/
inductive Origin where
  | none
  | occasion (fn : Nat)
  | items (l : List ReplyItem)
deriving DecidableEq, Repr

/-- A timed claim (R35). `begun` is the mark of a REACQUIRE that has begun (R37); `serial` numbers the claims in the order
in which they were inserted (log entry 13). -/
structure Claim where
  owner : Owner
  kind : ClaimKind
  start : Nat
  length : Nat
  origin : Origin
  granted : Nat
  begun : Bool
  serial : Nat
deriving DecidableEq, Repr

/-- RTA counters (R55). -/
structure RtaCounters where
  watchesMissed : Two Nat := ⟨0, 0⟩
  deliveriesMissed : Nat := 0
  deliveryFramesLost : Nat := 0
  repliesMissed : Nat := 0
  itemsRefused : Nat := 0
  gapsMissed : Nat := 0
  searchesMissed : Nat := 0
  connectedLost : Nat := 0
  displaced : Nat := 0
  late : Nat := 0
  jumped : Nat := 0
  tuneAways : Nat := 0
deriving DecidableEq, Repr

structure Rta where
  /-- The claims list in the order of R37. -/
  claims : List Claim
  nextSerial : Nat
  /-- CONNECTED standing claims (R36). -/
  connected : Two Bool
  /-- Owner of HANDOVER_EXEC (R36). -/
  hoExec : Option Sub
  /-- Last-granted owner (R42). -/
  lastGranted : Option Owner
  cnt : RtaCounters
deriving DecidableEq, Repr

/-! ## Subscription Context Store (chapter 1) -/

inductive SubState where
  | detached | search | camped | connecting | connected | handover
deriving DecidableEq, Repr

/-- Store notice state (R8, 9.4). -/
inductive Notice where
  | storeOk | fullSignalled | readyDue
deriving DecidableEq, Repr

/-- The serving fields, present together (R7): key, area code, T_cell, G and effective cycle T. -/
structure Serving where
  key : Key
  area : Nat
  tCell : Nat
  g : Nat
  cycle : Nat
deriving DecidableEq, Repr

/-- A subscription record (R1), less its IDENTITY and PARAM parts, which stand in `Tables`. -/
structure SubRec where
  state : SubState
  serving : Option Serving
  /-- K (R3). -/
  pagingKey : Nat
  weak : Bool
  reselecting : Bool
  candidate : Option Key
  /-- Connect guard countdown (R12). -/
  guard : Option Nat
  notice : Notice
  /-- Missed-occasion count (R47). -/
  missed : Nat
deriving DecidableEq, Repr

/-! ## Checked tables (R177, R182) -/

/-- How many positions of an entry and its check code are wrong: none, one (correctable), or two (detected), R182. -/
inductive Check where
  | good | one | two
deriving DecidableEq, Repr

/-- A table entry with the state of its check code and its damaged mark (R182, R183). -/
structure Checked (α : Type) where
  val : α
  check : Check
  damaged : Bool
deriving DecidableEq, Repr

/-- An entry written with a fresh check code, its damaged mark clear (R177). -/
def Checked.fresh {α : Type} (x : α) : Checked α := { val := x, check := .good, damaged := false }

structure GlobalEntry where
  lead : Nat
  drift : Int
  depth : Nat
  mode : OccMode
deriving DecidableEq, Repr

/-- PARAM (R4). Half-dB, dB, report, occasion and frame units are those of R4's table. -/
structure Param where
  kIdle : Nat
  kConn : Nat
  hysteresis : Nat
  weakDeclare : Int
  clearGap : Nat
  reselCount : Nat
  hoMargin : Nat
  timeToTrigger : Nat
  staleLimit : Nat
  starvation : Nat
  penalty : Nat
  prefCycle : Nat
  gapPeriod : Nat
  connectGuard : Nat
  reassembly : Nat
  screenLen : Nat
  areaCode : Nat
  discovery : Bool
  protectCall : Bool
  acceptLoop : Bool
deriving DecidableEq, Repr

/-- The defaults of R4, also the degraded form of a damaged PARAM entry (R5, R183). -/
def Param.default : Param :=
  { kIdle := 2, kConn := 3, hysteresis := 8, weakDeclare := -110, clearGap := 4, reselCount := 4, hoMargin := 6,
    timeToTrigger := 3, staleLimit := 5, starvation := 3, penalty := 8, prefCycle := 0, gapPeriod := 48,
    connectGuard := 200, reassembly := 47, screenLen := 256, areaCode := 0, discovery := true, protectCall := false,
    acceptLoop := false }

/-- The defaults of R21 and R161, also the degraded form of a damaged GLOBAL entry (R183). -/
def GlobalEntry.default : GlobalEntry := { lead := 164, drift := 0, depth := 4, mode := .realtime }

structure IdentityEntry where
  kind : IdKind
  digits : List Nat
  number : Nat
  valid : Bool
deriving DecidableEq, Repr

structure Bearer where
  owner : Sub
  cls : BearerClass
  state : BearerState
deriving DecidableEq, Repr

structure Tables where
  global : Checked GlobalEntry
  param : Two (Checked Param)
  /-- Entries 0..3 of A, then 0..3 of B (R177). -/
  identity : List (Checked IdentityEntry)
  /-- Words 0..15 of A, then of B (R136). -/
  screen : List (Checked (BitVec 16))
  bearer : List (Checked Bearer)
  /-- Classes of the event kinds 0..21; entries 22..31 name no kind (R177). -/
  eventClass : List (Checked EventClass)
deriving DecidableEq, Repr

/-! ## Cell Table (chapter 4) -/

/-- Per-subscription part of a cell entry (R57). -/
structure CellPart where
  owned : Bool
  stale : Nat
  trigger : Nat
  reported : Bool
  penalty : Nat
deriving DecidableEq, Repr

def CellPart.clear : CellPart := { owned := false, stale := 0, trigger := 0, reported := false, penalty := 0 }

/-- A cell entry (R57). `level` is F in e-units. -/
structure Cell where
  valid : Bool
  key : Key
  listed : Bool
  barred : Bool
  offset : Int
  level : Int
  samples : Nat
  serving : Two Bool
  hoTarget : Bool
  part : Two CellPart
  check : Check
deriving DecidableEq, Repr

/-- An invalid entry (R57: its other fields have no meaning; log entry 6). -/
def Cell.invalid : Cell :=
  { valid := false, key := ⟨0, 0⟩, listed := false, barred := false, offset := 0, level := -1120, samples := 0,
    serving := ⟨false, false⟩, hoTarget := false, part := ⟨CellPart.clear, CellPart.clear⟩, check := .good }

/-- Pseudo-LRU bits of a set (R60): `true` is bit value 1. -/
structure Plru where
  pair : Bool
  low : Bool
  high : Bool
deriving DecidableEq, Repr

/-- CTB counters (R74). -/
structure CtbCounters where
  allocations : Nat := 0
  replacements : Nat := 0
  listedReplacements : Nat := 0
  refused : Nat := 0
  staleInvalidations : Nat := 0
  filterRestarts : Nat := 0
  rebuilds : Nat := 0
deriving DecidableEq, Repr

structure Ctb where
  cells : List Cell
  plru : List Plru
  frozen : Bool
  cnt : CtbCounters
deriving DecidableEq, Repr

/-! ## Measurement Filter Unit (chapter 5) -/

/-- MFU counters, the unit's own state (R92). -/
structure Mfu where
  taken : Nat := 0
  discarded : Nat := 0
  cellsIgnored : Nat := 0
  malformedCells : Nat := 0
  duplicateCells : Nat := 0
  discoveryDrops : Nat := 0
  offers : Nat := 0
  resultsBuilt : Nat := 0
  resultsLost : Nat := 0
deriving DecidableEq, Repr

/-! ## Paging Monitor (chapter 6) -/

/-- Reply window (R94). -/
structure Window where
  occasion : Nat
  deliveryEnd : Option Nat
  replyFn : Nat
deriving DecidableEq, Repr

/-- Search chain field (R94). -/
inductive Chain where
  | own (start : Nat)
  | common
deriving DecidableEq, Repr

/-- Summary contents of a cell (R104). -/
structure Summary where
  tCell : Nat
  g : Nat
  area : Nat
deriving DecidableEq, Repr

/-- Paging record (R94), less its derived fields. `watchDue` and `gapDue` mark a renewal that R39 puts off to the next
frame start (log entry 14). -/
structure PgmRec where
  readOccasion : Option Nat := none
  window : Option Window := none
  announced : Option Nat := none
  chain : Option Chain := none
  watchDue : Bool := false
  gapDue : Bool := false
deriving DecidableEq, Repr

/-- PGM counters (R111). -/
structure PgmCounters where
  pagesTaken : Nat := 0
  pagesDiscarded : Nat := 0
  itemsIgnored : Nat := 0
  malformedItems : Nat := 0
  itemsUnmatched : Nat := 0
  itemsUnplaced : Nat := 0
  summariesMalformed : Nat := 0
  summariesUnmatched : Nat := 0
  resultsDiscarded : Nat := 0
  reselStarted : Nat := 0
  reselSucceeded : Nat := 0
  reselFailed : Nat := 0
deriving DecidableEq, Repr

structure Pgm where
  recs : Two PgmRec
  /-- A search renewal waits for the next frame start (R39, R110). -/
  searchDue : Bool
  /-- Target summary (R104). -/
  target : Option Summary
  cnt : PgmCounters
deriving DecidableEq, Repr

/-! ## Handover Execution Unit (chapter 7) -/

/-- A record of the trigger list (R113). -/
structure TrigRec where
  entry : Nat
  key : Key
  count : Nat
deriving DecidableEq, Repr

/-- Fallback frame and execution record, present together (R113). `loop` is the RADIO_LOOP state at acceptance. -/
structure HoRun where
  sub : Sub
  source : Key
  timing : Option Nat
  loop : Bool
  triggers : List TrigRec
  target : Key
  guard : Nat
deriving DecidableEq, Repr

/-- HXU counters (R126). -/
structure HxuCounters where
  ignored : Nat := 0
  accepted : Nat := 0
  commits : Nat := 0
  restores : Nat := 0
  abandonments : Nat := 0
  syncsUnused : Nat := 0
deriving DecidableEq, Repr

structure Hxu where
  run : Option HoRun
  /-- Serving timing values (R113). -/
  timing : Two (Option Nat)
  /-- The Cell Table's notice waits to be taken (R124). -/
  notice : Bool
  cnt : HxuCounters
deriving DecidableEq, Repr

/-! ## Bearer Router (chapter 8) -/

/-- A neighbour of a MEAS_RESULT (R87): key, level in half-dB, triggered mark. -/
structure Neighbour where
  key : Key
  level : Int
  triggered : Bool
deriving DecidableEq, Repr

/-- A frame of an uplink queue (R139). -/
inductive UplinkFrame where
  | traffic (bearer : Nat) (payload : Octets)
  | control (code : Nat) (body : Octets)
  | measResult (fn : Nat) (servingKey : Key) (servingLevel : Int) (neighbours : List Neighbour)
  | textAck (reference index : Nat)
  | textRefuse (cause reference index : Nat)
  | storeReady
  | handoverDone (target : Key) (timing : Nat)
  | handoverFail (target : Key) (cause : Nat) (timing : Option Nat)
deriving DecidableEq, Repr

/-- BRT counters (R143). -/
structure BrtCounters where
  downDiscards : Nat := 0
  rawRouted : Nat := 0
  alDownLosses : Nat := 0
  upDiscards : Nat := 0
  queueFull : Two Nat := ⟨0, 0⟩
  tailDisplacements : Nat := 0
  flushed : Nat := 0
  sent : Two Nat := ⟨0, 0⟩
deriving DecidableEq, Repr

structure Brt where
  queues : Two (List UplinkFrame)
  /-- Loss-announced mark (R134). -/
  lossAnnounced : Bool
  cnt : BrtCounters
deriving DecidableEq, Repr

/-! ## Text Store (chapter 9) -/

/-- A stored segment (R145). -/
structure Segment where
  sub : Sub
  sender : List Nat
  reference : Nat
  index : Nat
  total : Nat
  service : Nat
  arrival : Nat
  payload : Octets
deriving DecidableEq, Repr

/-- State of a group with the field present in it (R146): the expiry countdown while OPEN, the partial mark while READY. -/
inductive GroupState where
  | opened (countdown : Nat)
  | ready (partialMark : Bool)
deriving DecidableEq, Repr

/-- A group record (R146). `received` holds the received indices in rising order. -/
structure Group where
  sub : Sub
  sender : List Nat
  reference : Nat
  total : Nat
  received : List Nat
  state : GroupState
deriving DecidableEq, Repr

/-- TXS counters (R158). -/
structure TxsCounters where
  discarded : Nat := 0
  malformed : Nat := 0
  screened : Nat := 0
  mismatches : Nat := 0
  duplicates : Nat := 0
  late : Nat := 0
  storeFull : Nat := 0
  stored : Nat := 0
  completed : Nat := 0
  expired : Nat := 0
  taken : Nat := 0
  groupsDiscarded : Nat := 0
  answersLost : Nat := 0
deriving DecidableEq, Repr

structure Txs where
  slots : List (Option Segment)
  groups : List (Option Group)
  /-- Ready list: group record numbers, oldest first (R146). -/
  ready : List Nat
  /-- Slot choices made (the model's own counter, log entry 8). -/
  picks : Nat
  cnt : TxsCounters
deriving DecidableEq, Repr

/-! ## Voice Playout Buffer (chapter 10) -/

/-- A voice frame (R160). -/
structure VoiceFrame where
  seq : Nat
  payload : Octets
deriving DecidableEq, Repr

/-- A voice frame bound to a GRANT, with the bearer under whose id it is sent (R166). The owner is the GRANT's. -/
structure BoundFrame where
  bearer : Nat
  frame : VoiceFrame
deriving DecidableEq, Repr

/-- Playout state other than INACTIVE, with next-to-play where it is present (R160). -/
inductive Phase where
  | armed
  | prefill (next : Nat)
  | playing (next : Nat)
deriving DecidableEq, Repr

/-- The playout record while not INACTIVE (R160). -/
structure Playout where
  phase : Phase
  bearer : Nat
  owner : Sub
  depth : Nat
  buffer : List VoiceFrame
  last : Option Octets
  run : Nat
  upSeq : Nat
deriving DecidableEq, Repr

/-- Occupancy statistic (R165): the last samples in REALTIME; number, minimum and maximum in ACCUMULATE (log entry 30). -/
structure Occ where
  recent : List Nat := []
  count : Nat := 0
  low : Option Nat := none
  high : Option Nat := none
deriving DecidableEq, Repr

/-- VPB counters (R171). -/
structure VpbCounters where
  played : Nat := 0
  concealed : Nat := 0
  silent : Nat := 0
  late : Nat := 0
  duplicate : Nat := 0
  overflow : Nat := 0
  droppedAtEnd : Nat := 0
  loopDiscards : Nat := 0
  upSent : Nat := 0
  upDiscarded : Nat := 0
  ordersRefused : Nat := 0
deriving DecidableEq, Repr

structure Vpb where
  /-- None: INACTIVE. -/
  play : Option Playout
  pendingUp : Option VoiceFrame
  /-- The frame bound to the held GRANT (R166). -/
  bound : Option BoundFrame
  /-- CODEC_LOOP closed. -/
  codecLoop : Bool
  /-- RADIO_LOOP: closed with its loop subscription, or open. -/
  radioLoop : Option Sub
  occ : Occ
  cnt : VpbCounters
deriving DecidableEq, Repr

/-! ## Application Link Controller and Table Memory Controller (chapter 11) -/

/-- Event kinds in code order 0..21 (R180). -/
inductive EventKind where
  | start | paged | pageUnverified | textReady | areaChanged | serviceLost | linkDownLoss | feFault | tableDamaged | camped
  | busyOther | connectTimeout | tuneAway | fnSlip | screened | reselected | reselectFailed | hoIgnored | hoDone | hoFailed
  | storeFull | loopChanged
deriving DecidableEq, Repr

/-- An event record (R180, 11.6). -/
structure EventRec where
  kind : EventKind
  cls : EventClass
  sub : Option Sub
  fn : Nat
  arg1 : Int
  arg2 : Int
deriving DecidableEq, Repr

/-- Response statuses (00_scope.md 4, 11.6). -/
inductive Status where
  | done | doneClamped | noSuchTable | outOfRange | frozen | wrongState | empty | malformed
deriving DecidableEq, Repr

/-- The tables that requests address (R177). -/
inductive TableId where
  | global | param | identity | screen | bearer | eventClass | cell | claims | substate | fallback
deriving DecidableEq, Repr

/-- A timed claim as the CLAIMS view shows it: every field of R35 (R54). -/
structure ClaimView where
  owner : Owner
  kind : ClaimKind
  start : Nat
  length : Nat
  origin : Origin
  granted : Nat
deriving DecidableEq, Repr

/-- The arbiter record, entry 16 of CLAIMS (R54). -/
structure ArbiterView where
  connected : Two Bool
  hoExec : Option Sub
  lastGranted : Option Owner
  missed : Two Nat
deriving DecidableEq, Repr

/-- Entry 0 of the FALLBACK view (R127): the freeze flag, the run with the number of its trigger records, and the serving
timing values. -/
structure FallbackView where
  frozen : Bool
  run : Option HoRun
  records : Nat
  timing : Two (Option Nat)
deriving DecidableEq, Repr

/-- An entry as TABLE_READ returns it (R178, 11.6). -/
inductive ReadEntry where
  | damaged
  | empty
  | global (e : GlobalEntry)
  | param (e : Param)
  | identity (e : IdentityEntry)
  | screen (w : BitVec 16)
  | bearer (e : Bearer)
  | eventClass (c : EventClass)
  | cell (c : Cell)
  | claim (c : ClaimView)
  | arbiter (v : ArbiterView)
  | substate (r : SubRec)
  | fallback (v : FallbackView)
  | trigger (t : TrigRec)
deriving DecidableEq, Repr

/-- A text group as TEXT_TAKE returns it (R157): group fields and its segments in index order. -/
structure TextTransfer where
  sub : Sub
  sender : List Nat
  reference : Nat
  total : Nat
  partialMark : Bool
  segments : List Segment
deriving DecidableEq, Repr

/-- Playout state as STATS_TAKE returns it (R171). -/
inductive PlayState where
  | inactive | armed | prefill | playing
deriving DecidableEq, Repr

/-- ALC counters (R185). -/
structure AlcCounters where
  rxDown : Nat := 0
  checkErrors : Nat := 0
  malformedFrames : Nat := 0
  malformedRequests : Nat := 0
  responsesLost : Nat := 0
  forwardedLost : Nat := 0
  eventsSent : Nat := 0
  eventsSuppressed : Nat := 0
  eventsDropped : Nat := 0
  eventsDisplaced : Nat := 0
  injections : Nat := 0
deriving DecidableEq, Repr

structure Tmc where
  /-- Correctable counters by table code 0..6, each 0..15 (R182). -/
  correctable : List Nat
  uncorrectable : List Nat
  /-- Last fail record: table code, index, FN (R182). -/
  lastFail : Option (Nat × Nat × Nat)
deriving DecidableEq, Repr

/-- The contents of a STATS_TAKE response, in R185's order. -/
structure Stats where
  ftb : FtbCounters
  rta : RtaCounters
  ctb : CtbCounters
  mfu : Mfu
  pgm : PgmCounters
  hxu : HxuCounters
  brt : BrtCounters
  txs : TxsCounters
  vpb : VpbCounters
  alc : AlcCounters
  queued : Two Nat
  freeSlots : Nat
  freeRecords : Nat
  readyGroups : Nat
  play : PlayState
  events : Nat
  mode : OccMode
  samples : Nat
  low : Option Nat
  high : Option Nat
  tmc : Tmc
deriving DecidableEq, Repr

/-- What a response carries beside its status. -/
inductive Payload where
  | none
  | entries (table : TableId) (l : List ReadEntry)
  | entryNumber (n : Nat)
  | text (t : TextTransfer)
  | stats (x : Stats)
deriving DecidableEq, Repr

/-- A management response (R176): the tag and request code echoed, the status, the payload. -/
structure Response where
  tag : Nat
  code : Nat
  status : Status
  payload : Payload
deriving DecidableEq, Repr

/-- A downlink control message that is forwarded (R135). -/
inductive Message where
  | linkGrant (body : Octets)
  | linkRelease (body : Octets)
  | handoverOrder (target : Key) (guard : Nat)
  | loopOrder (close : Bool)
  | other (code : Nat) (body : Octets)
deriving DecidableEq, Repr

/-- A frame forwarded to the AL (R134): SIGNAL or DATA traffic, a raw frame, or a control frame. -/
inductive Forward where
  | traffic (s : Sub) (data : Bool) (bearer : Nat) (payload : Octets)
  | raw (s : Option Sub) (bearer : Nat) (seq : Nat) (payload : Octets)
  | control (s : Option Sub) (msg : Message)
deriving DecidableEq, Repr

/-- A frame that the ALC sends (R175). -/
inductive AlFrame where
  | response (r : Response)
  | forward (f : Forward)
  | event (e : EventRec)
deriving DecidableEq, Repr

/-- The frame in transmission. `detached` marks an EVENT frame whose record a warm reset has removed from the queue
(R179). -/
structure Sending where
  frame : AlFrame
  detached : Bool
deriving DecidableEq, Repr

structure Alc where
  /-- The LINK_READY input. -/
  linkReady : Bool
  /-- AL link state: UP. -/
  up : Bool
  responses : List Response
  forwarded : List Forward
  events : List EventRec
  tx : Option Sending
  /-- The WAKE_REQ output. -/
  wakeReq : Bool
  /-- Read cursor (R178). -/
  cursor : TableId × Nat
  cnt : AlcCounters
deriving DecidableEq, Repr

/-! ## Outputs -/

/-- A frame or command that the device sends on the FL (11.6). A REPLY and an uplink frame carry the Text Store's counts
as they stand when the frame is sent, for a STORE_READY in it (R154). -/
inductive FlFrame where
  | power (on : Bool)
  | grant (g : Grant)
  | reply (s : Sub) (fn : Nat) (items : List ReplyItem) (freeSlots freeRecords : Nat)
  | uplink (s : Sub) (fn : Nat) (frame : UplinkFrame) (freeSlots freeRecords : Nat)
  | voice (s : Sub) (fn : Nat) (bearer : Nat) (frame : VoiceFrame)
deriving DecidableEq, Repr

/-- What a pull delivers to the codec (R164): a frame, the last frame attenuated by 6 dB a step, or silence. -/
inductive CodecOut where
  | frame (payload : Octets)
  | conceal (payload : Octets) (steps : Nat)
  | silence
deriving DecidableEq, Repr

/-- What has left the device, oldest first (the model's own record, log entry 7). -/
structure Out where
  fl : List FlFrame
  al : List AlFrame
  codec : List CodecOut
deriving DecidableEq, Repr

/-! ## The state -/

structure State where
  ftb : Ftb
  rta : Rta
  scs : Two SubRec
  tab : Tables
  ctb : Ctb
  mfu : Mfu
  pgm : Pgm
  hxu : Hxu
  brt : Brt
  txs : Txs
  vpb : Vpb
  alc : Alc
  tmc : Tmc
  out : Out
  /-- The commands that wait, first in, first out (the model's own). -/
  pending : List Instr
deriving DecidableEq, Repr

/-! ## Reset values -/

/-- Default classes of the event kinds 0..21 (R180); entries 22..31 read as SUPPRESSED (R177). -/
def defaultClasses : List EventClass :=
  List.replicate 9 .urgent ++ List.replicate 13 .routine ++ List.replicate 10 .suppressed

def SubRec.reset : SubRec :=
  { state := .detached, serving := none, pagingKey := 0, weak := false, reselecting := false, candidate := none,
    guard := none, notice := .storeOk, missed := 0 }

def Tables.reset : Tables :=
  { global := .fresh .default
    param := ⟨.fresh .default, .fresh .default⟩
    identity := List.replicate 8 (.fresh { kind := .temporary, digits := [], number := 0, valid := false })
    screen := List.replicate 32 (.fresh 0#16)
    bearer := List.replicate 32 (.fresh { owner := .A, cls := .data, state := .idle })
    eventClass := defaultClasses.map .fresh }

/-- START after power-on (R180). -/
def startRecord : EventRec := { kind := .start, cls := .urgent, sub := none, fn := 0, arg1 := 0, arg2 := 0 }

/-- The timebase after power-on reset (R20, R34): FN 0, 327 ticks plus D, D being 0. -/
def Ftb.reset : Ftb :=
  { fn := 0, acc := 0, power := .off, counting := .sleep 327, elapsed := 0, held := none, comparePending := false,
    watchdog := none, wake := none, cnt := {} }

/-- The machine right after power-on reset with LINK_READY deasserted (R18, R34, R56, R75, R93, R112, R128, R144, R159, R172,
R185). -/
def State.reset : State :=
  { ftb := Ftb.reset
    rta := { claims := [], nextSerial := 0, connected := ⟨false, false⟩, hoExec := none, lastGranted := none, cnt := {} }
    scs := ⟨SubRec.reset, SubRec.reset⟩
    tab := Tables.reset
    ctb := { cells := List.replicate 64 Cell.invalid, plru := List.replicate 16 ⟨false, false, false⟩, frozen := false,
             cnt := {} }
    mfu := {}
    pgm := { recs := ⟨{}, {}⟩, searchDue := false, target := none, cnt := {} }
    hxu := { run := none, timing := ⟨none, none⟩, notice := false, cnt := {} }
    brt := { queues := ⟨[], []⟩, lossAnnounced := false, cnt := {} }
    txs := { slots := List.replicate 48 none, groups := List.replicate 12 none, ready := [], picks := 0, cnt := {} }
    vpb := { play := none, pendingUp := none, bound := none, codecLoop := false, radioLoop := none, occ := {}, cnt := {} }
    alc := { linkReady := false, up := false, responses := [], forwarded := [], events := [startRecord], tx := none,
             wakeReq := true, cursor := (.global, 0), cnt := {} }
    tmc := { correctable := List.replicate 7 0, uncorrectable := List.replicate 7 0, lastFail := none }
    out := { fl := [.power false], al := [], codec := [] }
    pending := [] }

end Sys2Proof.Machine
end

