-- ==== Sys2Proof/Machine/Flags.lean ====
section
/-! DEFINITION. Flag and level computations: the pseudo-LRU bits (R60), the level conversion and the filter (R78, R80),
ranks (R81) and the weak flag (R82). -/

namespace Sys2Proof.Machine

/-! ## Pseudo-LRU bits (R60) -/

/-- A touch of way `w` points the pair bit at the other pair and the bit of its own pair at its sibling. -/
def plruTouch (w : Nat) (p : Plru) : Plru :=
  match w with
  | 0 => { p with pair := true, low := true }
  | 1 => { p with pair := true, low := false }
  | 2 => { p with pair := false, high := true }
  | _ => { p with pair := false, high := false }

/-- The less recently used way of the low pair, and of the high pair. -/
def plruLow (p : Plru) : Nat := if p.low then 1 else 0
def plruHigh (p : Plru) : Nat := if p.high then 3 else 2

/-- The sibling of a way. -/
def plruSibling : Nat → Nat
  | 0 => 1
  | 1 => 0
  | 2 => 3
  | _ => 2

/-- The candidates of an allocation in the order of R61: the victim, its sibling, the less recently used way of the other
pair, that way's sibling. -/
def plruWalk (p : Plru) : List Nat :=
  let first := if p.pair then plruHigh p else plruLow p
  let other := if p.pair then plruLow p else plruHigh p
  [first, plruSibling first, other, plruSibling other]

/-! ## Levels (R78, R80, R81) -/

/-- M = 4 n - 1120 (R78). -/
def measuredLevel (n : Nat) : Int := 4 * (n : Int) - 1120

/-- F after a sample M with shift k (R80): M at sample count 0, else F + floor((M - F) / 2^k). -/
def filterLevel (samples : Nat) (f m : Int) (k : Nat) : Int :=
  if samples = 0 then m else f + (m - f) / (2 ^ k : Nat)

/-- The sample count after a sample, saturating at 255 (R80). -/
def filterSamples (samples : Nat) : Nat := min (samples + 1) 255

/-- Rank of an entry: F + 4 * offset (R81). -/
def rank (c : Cell) : Int := c.level + 4 * c.offset

/-- A level in half-decibels: floor(F / 4) (R87). -/
def halfDb (f : Int) : Int := f / 4

/-! ## Weak flag (R82) -/

/-- The weak flag after comparing F_S with the two thresholds: set below 8 * declare level, clear at or above
8 * (declare level + clear gap), else unchanged. -/
def weakAfter (p : Param) (f : Int) (weak : Bool) : Bool :=
  if f < 8 * p.weakDeclare then true
  else if 8 * (p.weakDeclare + p.clearGap) ≤ f then false
  else weak

end Sys2Proof.Machine
end

