-- ==== Sys2Proof/Machine/Operands.lean ====
section
/-! DEFINITION. Operand forms: ranges, clamps and form checks of the fields that frames and requests carry, and the
numbering of tables, events and statuses. -/

namespace Sys2Proof.Machine

/-- A counter "0..65535 and saturating" (R33 and the other counter rules), increased by `k`. -/
def satAdd (n k : Nat) : Nat := min (n + k) 65535

/-- Increased by one. -/
def satInc (n : Nat) : Nat := satAdd n 1

/-- TMC counters saturate at 15 (R182). -/
def satInc15 (n : Nat) : Nat := min (n + 1) 15

/-- Frame distance from frame `x` forward to frame `y`: (y - x) mod 1024 (00_scope.md 3.1). -/
def fnDist (x y : Nat) : Nat := (y + 1024 - x % 1024) % 1024

/-- The frame `k` frames after `x`. -/
def fnAdd (x k : Nat) : Nat := (x + k) % 1024

/-- A cell key in range: channel 0..16383, cell code 0..1023. -/
def keyInRange (k : Key) : Bool := decide (k.channel ≤ 16383) && decide (k.code ≤ 1023)

/-- T_cell is one of 32, 64, 128 and 256 (R7, R104). -/
def cycleOk (t : Nat) : Bool := t == 32 || t == 64 || t == 128 || t == 256

/-- G is one of 1, 3, 5 and 7 (R7, R104). -/
def spacingOk (g : Nat) : Bool := g == 1 || g == 3 || g == 5 || g == 7

/-- Clamp to a range (R5, R21): below it the lower bound, above it the upper bound. -/
def clamp (lo hi x : Int) : Int := if x < lo then lo else if hi < x then hi else x

/-- Clamp of a field held as a natural number. -/
def clampN (lo hi : Nat) (x : Int) : Nat := (clamp lo hi x).toNat

/-- Preferred cycle (R5): the largest of 0, 32, 64, 128 and 256 not above the written value, 0 below the range. -/
def clampCycle (x : Int) : Nat :=
  if x < 32 then 0 else if x < 64 then 32 else if x < 128 then 64 else if x < 256 then 128 else 256

/-- Playout depth (R161): below 2 it is 2, else the largest of 2, 4 and 8 not above the written value. -/
def clampDepth (x : Int) : Nat := if x < 4 then 2 else if x < 8 then 4 else 8

/-- A PARAM entry as stored (R4, R5). -/
def clampParam (w : ParamWrite) : Param :=
  { kIdle := clampN 0 7 w.kIdle
    kConn := clampN 0 7 w.kConn
    hysteresis := clampN 0 30 w.hysteresis
    weakDeclare := clamp (-140) (-40) w.weakDeclare
    clearGap := clampN 2 16 w.clearGap
    reselCount := clampN 1 15 w.reselCount
    hoMargin := clampN 0 30 w.hoMargin
    timeToTrigger := clampN 1 15 w.timeToTrigger
    staleLimit := clampN 1 15 w.staleLimit
    starvation := clampN 1 15 w.starvation
    penalty := clampN 1 15 w.penalty
    prefCycle := clampCycle w.prefCycle
    gapPeriod := clampN 16 128 w.gapPeriod
    connectGuard := clampN 50 500 w.connectGuard
    reassembly := clampN 1 255 w.reassembly
    screenLen := clampN 0 256 w.screenLen
    areaCode := clampN 0 65535 w.areaCode
    discovery := w.discovery
    protectCall := w.protectCall
    acceptLoop := w.acceptLoop }

/-- A stored PARAM entry as a write that would need no clamping. -/
def paramAsWrite (p : Param) : ParamWrite :=
  { kIdle := p.kIdle, kConn := p.kConn, hysteresis := p.hysteresis, weakDeclare := p.weakDeclare, clearGap := p.clearGap,
    reselCount := p.reselCount, hoMargin := p.hoMargin, timeToTrigger := p.timeToTrigger, staleLimit := p.staleLimit,
    starvation := p.starvation, penalty := p.penalty, prefCycle := p.prefCycle, gapPeriod := p.gapPeriod,
    connectGuard := p.connectGuard, reassembly := p.reassembly, screenLen := p.screenLen, areaCode := p.areaCode,
    discovery := p.discovery, protectCall := p.protectCall, acceptLoop := p.acceptLoop }

/-- Some field of the write is stored with another value than the one written (R5). -/
def paramNeedsClamp (w : ParamWrite) : Bool := paramAsWrite (clampParam w) != w

/-- A GLOBAL entry as stored, with a given mode (R21, R161). -/
def clampGlobal (w : GlobalWrite) (mode : OccMode) : GlobalEntry :=
  { lead := clampN 33 655 w.lead, drift := clamp (-64) 63 w.drift, depth := clampDepth w.depth, mode := mode }

/-- Some field of the GLOBAL write was clamped (R21, R161). -/
def globalNeedsClamp (w : GlobalWrite) : Bool :=
  clamp 33 655 w.lead != w.lead || clamp (-64) 63 w.drift != w.drift || (clampDepth w.depth : Int) != w.depth

/-- A digit string of `lo` to `hi` decimal digits. -/
def digitsOk (lo hi : Nat) (l : List Nat) : Bool :=
  decide (lo ≤ l.length) && decide (l.length ≤ hi) && l.all (fun d => decide (d ≤ 9))

/-- The form tests of an IDENTITY entry (R2): none when one refuses it. -/
def identityOfWrite (w : IdentityWrite) : Option IdentityEntry :=
  match w.kind with
  | some .permanent => if digitsOk 1 15 w.digits then some ⟨.permanent, w.digits, 0, w.valid⟩ else none
  | some .temporary => some ⟨.temporary, [], w.number, w.valid⟩
  | none => none

/-- A page item with its kind, when it is well formed (R99). -/
def pageItemKind (i : PageItem) : Option IdKind :=
  match i.kind with
  | none => none
  | some k =>
    let spanOk := i.span == 1 || i.span == 2 || i.span == 4
    let valueOk := match k with
      | .permanent => digitsOk 1 15 i.digits
      | .temporary => true
    if spanOk && valueOk && decide (i.follows ≤ 4) then some k else none

/-- The form checks of a text segment (R147): true when it is not malformed. -/
def segmentShaped (g : RawSegment) : Bool :=
  digitsOk 1 20 g.sender && decide (1 ≤ g.index) && decide (g.index ≤ 8) && decide (1 ≤ g.total) && decide (g.total ≤ 8) &&
    decide (g.index ≤ g.total) && decide (g.payload.length ≤ 152)

/-- The fields of an ACQ_RESULT are in range (R107): owner and purpose defined, the key in range, and for a found cell T_cell and G as R104 has them and a 16-bit area code. -/
def acqInRange (r : AcqResult) : Bool :=
  r.owner.isSome && r.purpose.isSome &&
    (if r.found then keyInRange r.key && cycleOk r.tCell && spacingOk r.g && decide (r.area ≤ 65535)
     else r.purpose != some .reacquire || keyInRange r.key)

/-- Effective cycle (R7): T_cell when the preferred cycle is 0, else the smaller of the two. -/
def effectiveCycle (tCell pref : Nat) : Nat := if pref = 0 then tCell else min tCell pref

/-- The occasion O = (K * G) mod T (R95). -/
def occasionOf (k g t : Nat) : Nat := (k * g) % t

/-- Distance from the current frame to the next occasion, 1..T (R95): ((O - FN - 1) mod T) + 1. -/
def occasionDist (o fn t : Nat) : Nat := (o + 2048 - (fn + 1)) % t + 1

/-- The paging key of a digit string (R3). -/
def keyOfDigits (l : List Nat) : Nat := l.foldl (fun k d => (k * 10 + d) % 1024) 0

/-- Table codes (R177). -/
def TableId.code : TableId → Nat
  | .global => 0
  | .param => 1
  | .identity => 2
  | .screen => 3
  | .bearer => 4
  | .eventClass => 5
  | .cell => 6
  | .claims => 7
  | .substate => 8
  | .fallback => 9

/-- The table a code names, none when it names none (R177). -/
def TableId.ofCode : Nat → Option TableId
  | 0 => some .global
  | 1 => some .param
  | 2 => some .identity
  | 3 => some .screen
  | 4 => some .bearer
  | 5 => some .eventClass
  | 6 => some .cell
  | 7 => some .claims
  | 8 => some .substate
  | 9 => some .fallback
  | _ => none

/-- Entries of each table (R177). -/
def TableId.size : TableId → Nat
  | .global => 1
  | .param => 2
  | .identity => 8
  | .screen => 32
  | .bearer => 32
  | .eventClass => 32
  | .cell => 64
  | .claims => 17
  | .substate => 2
  | .fallback => 65

/-- Event codes (R180). -/
def EventKind.code : EventKind → Nat
  | .start => 0
  | .paged => 1
  | .pageUnverified => 2
  | .textReady => 3
  | .areaChanged => 4
  | .serviceLost => 5
  | .linkDownLoss => 6
  | .feFault => 7
  | .tableDamaged => 8
  | .camped => 9
  | .busyOther => 10
  | .connectTimeout => 11
  | .tuneAway => 12
  | .fnSlip => 13
  | .screened => 14
  | .reselected => 15
  | .reselectFailed => 16
  | .hoIgnored => 17
  | .hoDone => 18
  | .hoFailed => 19
  | .storeFull => 20
  | .loopChanged => 21

/-- Request codes (11.6). -/
inductive Request where
  | tableWrite | tableRead | cellPut | cellDrop | subAttach | subDetach | textTake | statsTake | voiceLoop | checkInject
  | warmReset
deriving DecidableEq, Repr

def Request.code : Request → Nat
  | .tableWrite => 1
  | .tableRead => 2
  | .cellPut => 3
  | .cellDrop => 4
  | .subAttach => 5
  | .subDetach => 6
  | .textTake => 7
  | .statsTake => 8
  | .voiceLoop => 9
  | .checkInject => 10
  | .warmReset => 11

end Sys2Proof.Machine
end

