-- ==== Sys2Proof/Machine/Ops.lean ====
section
/-! DEFINITION. The shared operations at the bottom of every meaning: updates of one block, counters, the event queue
(R180), WAKE_REQ (R181), the AL transmitter (R175), table checks (R182) and responses (R176). -/

namespace Sys2Proof.Machine

/-! ## Updates of one block -/

def State.modFtb (s : State) (f : Ftb → Ftb) : State := { s with ftb := f s.ftb }
def State.modRta (s : State) (f : Rta → Rta) : State := { s with rta := f s.rta }
def State.modScs (s : State) (f : Two SubRec → Two SubRec) : State := { s with scs := f s.scs }
def State.modTab (s : State) (f : Tables → Tables) : State := { s with tab := f s.tab }
def State.modCtb (s : State) (f : Ctb → Ctb) : State := { s with ctb := f s.ctb }
def State.modMfu (s : State) (f : Mfu → Mfu) : State := { s with mfu := f s.mfu }
def State.modPgm (s : State) (f : Pgm → Pgm) : State := { s with pgm := f s.pgm }
def State.modHxu (s : State) (f : Hxu → Hxu) : State := { s with hxu := f s.hxu }
def State.modBrt (s : State) (f : Brt → Brt) : State := { s with brt := f s.brt }
def State.modTxs (s : State) (f : Txs → Txs) : State := { s with txs := f s.txs }
def State.modVpb (s : State) (f : Vpb → Vpb) : State := { s with vpb := f s.vpb }
def State.modAlc (s : State) (f : Alc → Alc) : State := { s with alc := f s.alc }
def State.modTmc (s : State) (f : Tmc → Tmc) : State := { s with tmc := f s.tmc }
def State.modOut (s : State) (f : Out → Out) : State := { s with out := f s.out }

/-- The record of one subscription. -/
def State.sub (s : State) (b : Sub) : SubRec := s.scs.get b

/-- Change the record of one subscription. -/
def State.modSub (s : State) (b : Sub) (f : SubRec → SubRec) : State := s.modScs (fun t => t.set b (f (t.get b)))

/-- Change the paging record of one subscription. -/
def State.modRec (s : State) (b : Sub) (f : PgmRec → PgmRec) : State :=
  s.modPgm (fun p => { p with recs := p.recs.set b (f (p.recs.get b)) })

/-! ## Counters -/

def State.cntFtb (s : State) (f : FtbCounters → FtbCounters) : State := s.modFtb (fun x => { x with cnt := f x.cnt })
def State.cntRta (s : State) (f : RtaCounters → RtaCounters) : State := s.modRta (fun x => { x with cnt := f x.cnt })
def State.cntCtb (s : State) (f : CtbCounters → CtbCounters) : State := s.modCtb (fun x => { x with cnt := f x.cnt })
def State.cntPgm (s : State) (f : PgmCounters → PgmCounters) : State := s.modPgm (fun x => { x with cnt := f x.cnt })
def State.cntHxu (s : State) (f : HxuCounters → HxuCounters) : State := s.modHxu (fun x => { x with cnt := f x.cnt })
def State.cntBrt (s : State) (f : BrtCounters → BrtCounters) : State := s.modBrt (fun x => { x with cnt := f x.cnt })
def State.cntTxs (s : State) (f : TxsCounters → TxsCounters) : State := s.modTxs (fun x => { x with cnt := f x.cnt })
def State.cntVpb (s : State) (f : VpbCounters → VpbCounters) : State := s.modVpb (fun x => { x with cnt := f x.cnt })
def State.cntAlc (s : State) (f : AlcCounters → AlcCounters) : State := s.modAlc (fun x => { x with cnt := f x.cnt })

/-! ## Outputs -/

/-- A frame or command leaves on the FL. -/
def sendFl (x : FlFrame) (s : State) : State := s.modOut (fun o => { o with fl := o.fl ++ [x] })

/-- A pull delivers to the codec. -/
def sendCodec (x : CodecOut) (s : State) : State := s.modOut (fun o => { o with codec := o.codec ++ [x] })

/-! ## Events (R180, R181) -/

/-- WAKE_REQ is asserted exactly while the link is DOWN and the queue holds at least one urgent record (R181). -/
def wakeLevel (a : Alc) : Bool := !a.up && a.events.any (fun e => e.cls == .urgent)

/-- The ALC sets WAKE_REQ anew (R181). -/
def setWake (s : State) : State := s.modAlc (fun a => { a with wakeReq := wakeLevel a })

/-- The record at the head of the queue is being sent (R175). -/
def headSending (a : Alc) : Bool :=
  match a.tx with
  | some ⟨.event _, false⟩ => true
  | _ => false

/-- Remove the first ROUTINE record, if there is one. -/
def removeFirstRoutine : List EventRec → Option (List EventRec)
  | [] => none
  | e :: l => if e.cls = .routine then some l else (removeFirstRoutine l).map (fun l' => e :: l')

/-- Remove the oldest ROUTINE record that is not being sent (R180, case 5). -/
def displaceRoutine (a : Alc) : Option (List EventRec) :=
  if headSending a then
    match a.events with
    | [] => none
    | e :: l => (removeFirstRoutine l).map (fun l' => e :: l')
  else removeFirstRoutine a.events

/-- Queue a classed record (R180, cases 2 to 5), then set WAKE_REQ. -/
def enqueueEvent (e : EventRec) (s : State) : State :=
  match e.cls with
  | .suppressed => s.cntAlc (fun c => { c with eventsSuppressed := satInc c.eventsSuppressed })
  | .routine =>
    if s.alc.events.length < 32 then setWake (s.modAlc (fun a => { a with events := a.events ++ [e] }))
    else s.cntAlc (fun c => { c with eventsDropped := satInc c.eventsDropped })
  | .urgent =>
    if s.alc.events.length < 32 then setWake (s.modAlc (fun a => { a with events := a.events ++ [e] }))
    else match displaceRoutine s.alc with
      | some l =>
        setWake ((s.modAlc (fun a => { a with events := l ++ [e] })).cntAlc
          (fun c => { c with eventsDisplaced := satInc c.eventsDisplaced }))
      | none => s.cntAlc (fun c => { c with eventsDropped := satInc c.eventsDropped })

/-- The TMC counts and records an uncorrectable entry (R182), before TABLE_DAMAGED is posted. -/
def tmcRecord (t : TableId) (i : Nat) (s : State) : State :=
  s.modTmc (fun m => { m with
    uncorrectable := m.uncorrectable.modify t.code satInc15
    lastFail := some (t.code, i, s.ftb.fn) })

/-- The TMC counts a corrected entry (R182). -/
def tmcCorrect (t : TableId) (s : State) : State :=
  s.modTmc (fun m => { m with correctable := m.correctable.modify t.code satInc15 })

/-- EVENT_CLASS entry `k`. -/
def classEntry (s : State) (k : Nat) : Checked EventClass := s.tab.eventClass.getD k (.fresh .suppressed)

def setClassEntry (k : Nat) (e : Checked EventClass) (s : State) : State :=
  s.modTab (fun t => { t with eventClass := t.eventClass.set k e })

/-- Post an event (R180). The class is read from EVENT_CLASS with its check; an entry found uncorrectable gives URGENT, and
its own TABLE_DAMAGED is posted after the record in hand. `fuel` bounds that chain: the record, the damage of its class
entry, and the damage of TABLE_DAMAGED's class entry (R182). -/
def postFuel : Nat → EventKind → Option Sub → Int → Int → State → State
  | 0, _, _, _, _, s => s
  | fuel + 1, kind, sub, a1, a2, s =>
    let e := classEntry s kind.code
    let mk : EventClass → EventRec := fun c => { kind := kind, cls := c, sub := sub, fn := s.ftb.fn, arg1 := a1, arg2 := a2 }
    if e.damaged then enqueueEvent (mk .urgent) s
    else match e.check with
      | .good => enqueueEvent (mk e.val) s
      | .one => enqueueEvent (mk e.val) (tmcCorrect .eventClass (setClassEntry kind.code { e with check := .good } s))
      | .two =>
        let s1 := tmcRecord .eventClass kind.code (setClassEntry kind.code { e with damaged := true } s)
        postFuel fuel .tableDamaged none TableId.eventClass.code kind.code (enqueueEvent (mk .urgent) s1)

/-- Post an event of a kind, for a subscription or none, with two arguments (R180). -/
def post (kind : EventKind) (sub : Option Sub) (a1 a2 : Int) (s : State) : State := postFuel 3 kind sub a1 a2 s

/-- An uncorrectable entry: counted, recorded, TABLE_DAMAGED posted (R182). -/
def tmcFail (t : TableId) (i : Nat) (s : State) : State := post .tableDamaged none t.code i (tmcRecord t i s)

/-- A use of a stored entry `e` of a table, `put` writing it back (R182): an entry marked damaged is not checked, a single
error is corrected and counted, an uncorrectable entry is marked damaged, counted, recorded and announced. -/
def useEntry {α : Type} (t : TableId) (i : Nat) (e : Checked α) (put : Checked α → State → State) (s : State) : State :=
  if e.damaged then s
  else match e.check with
    | .good => s
    | .one => tmcCorrect t (put { e with check := .good } s)
    | .two => tmcFail t i (put { e with damaged := true } s)

/-! ## The AL transmitter (R175) -/

/-- The transmitter, free and with the link UP, chooses the next frame: the oldest response, else the oldest forwarded
frame, else the record at the head of the event queue (R175). Run once at the end of a command (log entry 15). -/
def pump (s : State) : State :=
  if s.alc.up && s.alc.tx.isNone then
    match s.alc.responses with
    | r :: l => s.modAlc (fun a => { a with responses := l, tx := some ⟨.response r, false⟩ })
    | [] => match s.alc.forwarded with
      | f :: l => s.modAlc (fun a => { a with forwarded := l, tx := some ⟨.forward f, false⟩ })
      | [] => match s.alc.events with
        | e :: _ => s.modAlc (fun a => { a with tx := some ⟨.event e, false⟩ })
        | [] => s
  else s

/-- The result of a command: its effect, then the transmitter's choice. -/
def finish (s : State) : Host.Outcome State Fault Refusal := .next (pump s)

/-- A response joins the waiting responses; made while 16 wait, it is discarded and counted (R175). -/
def addResponse (r : Response) (s : State) : State :=
  if s.alc.responses.length < 16 then s.modAlc (fun a => { a with responses := a.responses ++ [r] })
  else s.cntAlc (fun c => { c with responsesLost := satInc c.responsesLost })

/-- Answer a request with a status and a payload (R176): MALFORMED is counted. -/
def answer (q : Request) (tag : Nat) (st : Status) (p : Payload) (s : State) : State :=
  addResponse { tag := tag, code := q.code, status := st, payload := p }
    (if st = .malformed then s.cntAlc (fun c => { c with malformedRequests := satInc c.malformedRequests }) else s)

/-- A frame that arrives on the AL while the link is DOWN is discarded and counted; otherwise `f` handles it (R174). -/
def onAl (s : State) (f : State → State) : Host.Outcome State Fault Refusal :=
  if s.alc.up then finish (f s) else .next (s.cntAlc (fun c => { c with rxDown := satInc c.rxDown }))

/-! ## Forwarding to the AL (R134) -/

/-- Argument 1 of LINK_DOWN_LOSS: the kind of the lost frame (R134). -/
def Forward.lossKind : Forward → Nat
  | .traffic _ false _ _ => 0
  | .traffic _ true _ _ => 1
  | .control _ _ => 2
  | .raw _ _ _ _ => 3

def Forward.subject : Forward → Option Sub
  | .traffic b _ _ _ => some b
  | .control b _ => b
  | .raw b _ _ _ => b

def Forward.bearerId : Forward → Nat
  | .traffic _ _ i _ => i
  | .control _ _ => 0
  | .raw _ i _ _ => i

/-- A frame for the AL is lost while the link is DOWN: counted, and announced once for each period of DOWN (R134). -/
def loseForward (f : Forward) (s : State) : State :=
  let s := s.cntBrt (fun c => { c with alDownLosses := satInc c.alDownLosses })
  if s.brt.lossAnnounced then s
  else post .linkDownLoss f.subject f.lossKind f.bearerId (s.modBrt (fun b => { b with lossAnnounced := true }))

/-- Forward a frame to the AL (R134, R175). -/
def forward (f : Forward) (s : State) : State :=
  if s.alc.up then
    if s.alc.forwarded.length < 32 then s.modAlc (fun a => { a with forwarded := a.forwarded ++ [f] })
    else s.cntAlc (fun c => { c with forwardedLost := satInc c.forwardedLost })
  else loseForward f s

/-! ## Effective entries: the degraded form of a damaged entry (R183) -/

/-- GLOBAL as the blocks use it. -/
def effGlobal (s : State) : GlobalEntry := if s.tab.global.damaged then .default else s.tab.global.val

/-- PARAM of a subscription as the blocks use it. -/
def effParam (s : State) (b : Sub) : Param :=
  if (s.tab.param.get b).damaged then .default else (s.tab.param.get b).val

/-- BEARER entry `i`. -/
def bearerAt (s : State) (i : Nat) : Checked Bearer := s.tab.bearer.getD i (.fresh ⟨.A, .data, .idle⟩)

def setBearer (i : Nat) (e : Checked Bearer) (s : State) : State :=
  s.modTab (fun t => { t with bearer := t.bearer.set i e })

/-- A bearer that carries traffic: ACTIVE or HELD, and not damaged (R129). -/
def bearerLive (e : Checked Bearer) : Bool := !e.damaged && e.val.state != .idle

/-- IDENTITY entry `i` of the table. -/
def identityAt (s : State) (i : Nat) : Checked IdentityEntry :=
  s.tab.identity.getD i (.fresh { kind := .temporary, digits := [], number := 0, valid := false })

def setIdentity (i : Nat) (e : Checked IdentityEntry) (s : State) : State :=
  s.modTab (fun t => { t with identity := t.identity.set i e })

/-- SCREEN word `i` of the table. -/
def screenAt (s : State) (i : Nat) : Checked (BitVec 16) := s.tab.screen.getD i (.fresh 0#16)

def setScreen (i : Nat) (e : Checked (BitVec 16)) (s : State) : State :=
  s.modTab (fun t => { t with screen := t.screen.set i e })

def setParam (b : Sub) (e : Checked Param) (s : State) : State :=
  s.modTab (fun t => { t with param := t.param.set b e })

/-- CONNECTING, CONNECTED or HANDOVER: the subscription holds a link (R138). -/
def holdsLink (s : State) (b : Sub) : Bool :=
  match (s.sub b).state with
  | .connecting => true
  | .connected => true
  | .handover => true
  | _ => false

/-- CAMPED, CONNECTING, CONNECTED or HANDOVER: the subscription has a serving cell. -/
def isServed (s : State) (b : Sub) : Bool := holdsLink s b || (s.sub b).state == .camped

/-- The subscription looks for a cell by search: SEARCH with no candidate key (R110). -/
def inSearch (s : State) (b : Sub) : Bool := (s.sub b).state == .search && (s.sub b).candidate.isNone

/-- Free slots of the Text Store (R145). -/
def freeCount (s : State) : Nat := s.txs.slots.countP Option.isNone

/-- Free group records (R146). -/
def freeRecords (s : State) : Nat := s.txs.groups.countP Option.isNone

end Sys2Proof.Machine
end

