-- ==== Sys2Proof/Machine/Timebase.lean ====
section
/-! DEFINITION. The timebase: frame lengths on the sleep clock (R20), the next claimed frame and the wake instant (R22,
R23), power commands and the power-down test (R27), and the checked use of GLOBAL (R21, R161, R182). -/

namespace Sys2Proof.Machine

/-! ## Use of the GLOBAL entry -/

/-- Empty the occupancy statistic (R165). -/
def restartOcc (s : State) : State := s.modVpb (fun v => { v with occ := {} })

/-- A use of GLOBAL (R182). Found uncorrectable, it is marked damaged, and the statistic restarts if the effective mode
changes (R161). -/
def checkGlobal (s : State) : State :=
  let e := s.tab.global
  if e.damaged then s
  else match e.check with
    | .good => s
    | .one => tmcCorrect .global (s.modTab (fun t => { t with global := { e with check := .good } }))
    | .two =>
      let s1 := tmcFail .global 0 (s.modTab (fun t => { t with global := { e with damaged := true } }))
      if (effGlobal s1).mode = (effGlobal s).mode then s1 else restartOcc s1

/-! ## Frame lengths (R20) -/

/-- The length of the sleep-counted frame `fn` drawn with accumulator `acc` and drift D, and the accumulator after it. -/
def drawLength (fn acc : Nat) (drift : Int) : Nat × Nat :=
  let wraps := 100 ≤ acc + 68
  let base : Nat := if wraps then 328 else 327
  (if fn = 0 then ((base : Int) + drift).toNat else base, if wraps then acc + 68 - 100 else acc + 68)

/-- The summed lengths of `n` frames from frame `fn` on, drawn in advance (R22). -/
def sumLengths : Nat → Nat → Nat → Int → Nat
  | 0, _, _, _ => 0
  | n + 1, fn, acc, drift =>
    (drawLength fn acc drift).1 + sumLengths n (fnAdd fn 1) (drawLength fn acc drift).2 drift

/-- Draw the length of the current frame and count it on the sleep clock. -/
def drawCurrent (s : State) : State :=
  let s := checkGlobal s
  let p := drawLength s.ftb.fn s.ftb.acc (effGlobal s).drift
  s.modFtb (fun f => { f with counting := .sleep p.1, acc := p.2 })

/-! ## The next claimed frame (R22) -/

/-- A timed claim covers frame `fn`: its interval contains it, or it is a REACQUIRE that has begun (R37). -/
def covers (fn : Nat) (c : Claim) : Bool :=
  if c.kind = .reacquire then c.begun else decide (fnDist c.start fn < c.length)

/-- Distance to the earliest frame after `fn` that lies within the claim's interval; none when `fn` is its final frame. -/
def claimNext (fn : Nat) (c : Claim) : Option Nat :=
  if c.kind = .reacquire then some (if c.begun then 1 else max 1 (fnDist fn c.start))
  else if covers fn c then (if fnDist c.start fn + 1 < c.length then some 1 else none)
  else some (fnDist fn c.start)

/-- A standing claim is set (R36). -/
def standingSet (s : State) : Bool := s.rta.connected.a || s.rta.connected.b || s.rta.hoExec.isSome

/-- The smaller of two distances, where there are any. -/
def minDist : Option Nat → Option Nat → Option Nat
  | some x, some y => some (min x y)
  | some x, none => some x
  | none, y => y

/-- Distance to the next claimed frame (R22): 1 under a standing claim, else the earliest of the timed claims. -/
def nextClaimed (s : State) : Option Nat :=
  if standingSet s then some 1
  else s.rta.claims.foldl (fun m c => minDist m (claimNext s.ftb.fn c)) none

/-! ## Power (R22, R23, R27) -/

/-- POWER(ON) is sent and the front end becomes WARMING (R23). -/
def powerOn (s : State) : State :=
  sendFl (.power true) (s.modFtb (fun f => { f with power := .warming, wake := none }))

/-- The wake instant, in ticks from the start of the current frame; it may lie before the start (R22). -/
def wakeTick (s : State) : Option Int :=
  match s.ftb.counting, nextClaimed s with
  | .sleep len, some x =>
    let g := effGlobal s
    some ((len : Int) + sumLengths (x - 1) (fnAdd s.ftb.fn 1) s.ftb.acc g.drift - g.lead)
  | _, _ => none

/-- Compute the wake instant again (R22). While OFF an instant at or before the current tick sends POWER(ON) at once; while
WARMING or ON no wake instant is kept (R23). -/
def setWakeInstant (s : State) : State :=
  match s.ftb.power with
  | .off =>
    match wakeTick s with
    | none => s.modFtb (fun f => { f with wake := none })
    | some w => if w ≤ s.ftb.elapsed then powerOn s else s.modFtb (fun f => { f with wake := some w.toNat })
  | _ => s.modFtb (fun f => { f with wake := none })

/-- The wake instant computed again after a change of the claims, of L or of D, or at a frame start (R22). -/
def refreshWake (s : State) : State := setWakeInstant (checkGlobal s)

/-- A use of GLOBAL by another block: a damage mark set by it changes L and D, so the wake instant is computed again
(R21). -/
def useGlobal (s : State) : State :=
  let s1 := checkGlobal s
  if s1.tab.global.damaged && !s.tab.global.damaged then setWakeInstant s1 else s1

/-- POWER(OFF) is sent and the state becomes OFF. -/
def powerOff (s : State) : State := sendFl (.power false) (s.modFtb (fun f => { f with power := .off }))

/-- Power-down while ON (R20, R27): the watchdog stops, and a frame counted from its mark becomes sleep-counted from that
mark with a drawn length. Where marks come so late that the length has passed already, the frame ends at the next sleep tick
(log entry 44). To the length of an FN 0 frame D is added, also where the frame was reached by adoption (log entry 60). -/
def powerDownOn (s : State) : State :=
  let s := powerOff (s.modFtb (fun f => { f with watchdog := none, comparePending := false }))
  match s.ftb.counting with
  | .marks => drawCurrent s
  | .sleep _ => s

/-- The accumulator from which the frames after the current one are drawn: a frame counted on marks would first be drawn
itself at the power-down (R20, R27; log entry 16). -/
def accAfterCurrent (s : State) : Nat :=
  match s.ftb.counting with
  | .marks => (drawLength s.ftb.fn s.ftb.acc (effGlobal s).drift).2
  | .sleep _ => s.ftb.acc

/-- The power-down test gives power down (R27): no standing claim, and no next claimed frame or one more than L ticks after
the boundary that starts FN + 1. -/
def powerDownDue (s : State) : Bool :=
  !standingSet s &&
    match nextClaimed s with
    | none => true
    | some x =>
      let g := effGlobal s
      decide (g.lead < sumLengths (x - 1) (fnAdd s.ftb.fn 1) (accAfterCurrent s) g.drift)

/-- The power-down test of R27, applied after a grant decision; not while a first-mark comparison is pending, nor while
WARMING with a GRANT held. -/
def powerDownTest (s : State) : State :=
  let s := checkGlobal s
  match s.ftb.power with
  | .off => s
  | .on => if !s.ftb.comparePending && powerDownDue s then setWakeInstant (powerDownOn s) else s
  | .warming => if s.ftb.held.isNone && powerDownDue s then setWakeInstant (powerOff s) else s

end Sys2Proof.Machine
end

