-- ==== Sys2Proof/Machine/Claims.lean ====
section
/-! DEFINITION. The claims list (R35 to R40) and what hangs on it: its order, insertion without displacement, removal, REPLY
items, priorities (R41), the page watch of a subscription (R95, R96), the reads of PARAM, IDENTITY and SCREEN, and the paging key
(R3). -/

namespace Sys2Proof.Machine

/-! ## The list and its order (R37) -/

def Claim.items (c : Claim) : List ReplyItem :=
  match c.origin with
  | .items l => l
  | _ => []

/-- `x` stands before `y` in the list at frame `fn` (R37): covering claims first, the longest begun first, then by distance
to the start; equal places in the order of insertion. -/
def claimBefore (fn : Nat) (x y : Claim) : Bool :=
  let age := fun c : Claim => fnDist c.start fn
  let dist := fun c : Claim => fnDist fn c.start
  match covers fn x, covers fn y with
  | true, false => true
  | false, true => false
  | true, true => decide (age y < age x) || (age x == age y && decide (x.serial < y.serial))
  | false, false => decide (dist x < dist y) || (dist x == dist y && decide (x.serial < y.serial))

/-- Put a claim at its place in an ordered list. -/
def insertSorted (fn : Nat) (c : Claim) : List Claim → List Claim
  | [] => [c]
  | y :: l => if claimBefore fn c y then c :: y :: l else y :: insertSorted fn c l

/-- The list in the order of R37. -/
def sortClaims (fn : Nat) (l : List Claim) : List Claim := l.foldr (insertSorted fn) []

/-- A REPLY claim of `u` that starts at `start`. -/
def isReplyAt (u : Sub) (start : Nat) (c : Claim) : Bool := c.kind == .reply && c.owner == .sub u && c.start == start

/-- The reply window of `u` ends when its REPLY claim has left the list (R102). -/
def syncWindow (u : Sub) (s : State) : State :=
  match (s.pgm.recs.get u).window with
  | some w =>
    if s.rta.claims.any (isReplyAt u w.replyFn) then s else s.modRec u (fun r => { r with window := none })
  | none => s

/-- A change of the claims list: the reply windows follow it and the wake instant is computed again (R22, R102). -/
def setClaims (l : List Claim) (s : State) : State :=
  refreshWake (syncWindow .B (syncWindow .A (s.modRta (fun r => { r with claims := l }))))

/-- Remove the claims that satisfy `p`, with no missed effect and no count (R40). -/
def removeClaims (p : Claim → Bool) (s : State) : State :=
  if s.rta.claims.any p then setClaims (s.rta.claims.filter (fun c => !p c)) s else s

/-- The claims of `u` of one kind. -/
def ownKind (u : Sub) (k : ClaimKind) (c : Claim) : Bool := c.kind == k && c.owner == .sub u

/-- The list holds a claim of `u` of this kind. -/
def hasClaim (s : State) (u : Sub) (k : ClaimKind) : Bool := s.rta.claims.any (ownKind u k)

/-- A claim to insert; its serial is given at insertion. -/
def newClaim (owner : Owner) (kind : ClaimKind) (start length : Nat) (origin : Origin) : Claim :=
  { owner := owner, kind := kind, start := start, length := length, origin := origin, granted := 0, begun := false,
    serial := 0 }

/-- Insert a claim at its place by R37. -/
def placeClaim (c : Claim) (s : State) : State :=
  let c := { c with serial := s.rta.nextSerial }
  setClaims (insertSorted s.ftb.fn c s.rta.claims) (s.modRta (fun r => { r with nextSerial := r.nextSerial + 1 }))

/-- The claim with which a new claim merges: same owner, kind and start (R38). -/
def sameClaim (c d : Claim) : Bool := c.owner == d.owner && c.kind == d.kind && c.start == d.start

/-- Change the claims that satisfy `p` in place. -/
def mapClaims (p : Claim → Bool) (f : Claim → Claim) (s : State) : State :=
  s.modRta (fun r => { r with claims := r.claims.map (fun c => if p c then f c else c) })

/-! ## REPLY items (R35, R103) -/

def countRefusedItems (k : Nat) (s : State) : State :=
  if k = 0 then s else s.cntRta (fun c => { c with itemsRefused := satAdd c.itemsRefused k })

/-- Append items to the REPLY claims that satisfy `p`, up to four; the rest are refused and counted (R35, R38). With no item
to append nothing changes. -/
def appendItems (p : Claim → Bool) (l : List ReplyItem) (s : State) : State :=
  if l.isEmpty then s
  else match s.rta.claims.find? p with
    | none => s
    | some c =>
      let room := 4 - c.items.length
      countRefusedItems (l.length - room)
        (mapClaims p (fun c => { c with origin := .items (c.items ++ l.take room) }) s)

/-- A STORE_READY of `u` stands in a REPLY claim: the store notice item is waiting (R94). -/
def storeReadyWaiting (s : State) (u : Sub) : Bool :=
  s.rta.claims.any (fun c => ownKind u .reply c && c.items.contains (.storeReady u))

/-- The claim has been decided and a warm-up holds its GRANT (R24). -/
def decided (s : State) (c : Claim) : Bool := s.ftb.held.any (fun g => g.serial == some c.serial)

/-- Withdraw the STORE_READY of `u` from its REPLY claim (R103), also from one that has been decided. -/
def withdrawStoreReady (u : Sub) (s : State) : State :=
  mapClaims (ownKind u .reply) (fun c => { c with origin := .items (c.items.filter (· != .storeReady u)) }) s

/-- Set the store notice state; when it leaves READY_DUE a waiting STORE_READY is withdrawn (R103). -/
def setNotice (u : Sub) (n : Notice) (s : State) : State :=
  let leaves := (s.sub u).notice == .readyDue && n != .readyDue
  let s := s.modSub u (fun r => { r with notice := n })
  if leaves && storeReadyWaiting s u then withdrawStoreReady u s else s

/-! ## Priorities (R41) -/

/-- The other subscription is CONNECTED with protect call on (R49). -/
def callProtected (s : State) (u : Sub) : Bool :=
  (s.sub u.other).state == .connected && (effParam s u.other).protectCall

/-- Priority of a claim of a kind and owner, by the conditions that hold now (R41). -/
def priority (s : State) (owner : Owner) (kind : ClaimKind) : Nat :=
  match kind, owner with
  | .handoverExec, _ => 7
  | .reacquire, _ => 6
  | .pageWatch, .sub u => if (s.sub u).missed = (effParam s u).starvation then 5 else 2
  | .pageWatch, .common => 2
  | .delivery, .sub u => if callProtected s u then 3 else 5
  | .delivery, .common => 5
  | .reply, .sub u => if callProtected s u then 3 else 5
  | .reply, .common => 5
  | .measGap, .sub u => if (s.sub u).state = .connected ∨ (s.sub u).weak = true then 5 else 3
  | .measGap, .common => 3
  | .connected, _ => 4
  | .search, _ => 1

/-- Start order for displacement (R39): a covering claim counts as having the earliest start. -/
def displaceStart (fn : Nat) (c : Claim) : Nat := if covers fn c then 0 else fnDist fn c.start

/-- `x` is displaced rather than `y` (R39): lower priority, then later start, then later insertion. -/
def displacedBefore (s : State) (x y : Claim) : Bool :=
  let px := priority s x.owner x.kind
  let py := priority s y.owner y.kind
  let dx := displaceStart s.ftb.fn x
  let dy := displaceStart s.ftb.fn y
  decide (px < py) || (px == py && (decide (dy < dx) || (dx == dy && decide (y.serial < x.serial))))

/-- The claim displaced among a list and one more (R39). -/
def chooseDisplaced (s : State) (c : Claim) (l : List Claim) : Claim :=
  l.foldl (fun m d => if displacedBefore s d m then d else m) c

/-! ## The page watch (R95, R96) -/

/-- O of a subscription, present with its serving cell (R94, R95). -/
def occasion (s : State) (u : Sub) : Option Nat :=
  (s.sub u).serving.map (fun v => occasionOf (s.sub u).pagingKey v.g v.cycle)

/-- The start of the next page watch: the next occasion after the current frame (R95). -/
def nextOccasion (s : State) (u : Sub) : Option Nat :=
  (s.sub u).serving.map (fun v =>
    fnAdd s.ftb.fn (occasionDist (occasionOf (s.sub u).pagingKey v.g v.cycle) s.ftb.fn v.cycle))

/-- The pending watch: the PAGE_WATCH of the subscription in the list (R94). -/
def pendingWatch (s : State) (u : Sub) : Option Claim := s.rta.claims.find? (ownKind u .pageWatch)

def watchClaim (u : Sub) (start : Nat) : Claim := newClaim (.sub u) .pageWatch start 1 (.occasion start)

/-- A change of K, T or G while CAMPED (R96): where the next occasion differs from the pending watch's start, that watch is
removed and one at the new occasion inserted. -/
def moveWatch (u : Sub) (s : State) : State :=
  if (s.sub u).state = .camped then
    match pendingWatch s u, nextOccasion s u with
    | some c, some next =>
      if c.start = next then s
      else placeClaim (watchClaim u next) (removeClaims (ownKind u .pageWatch) s)
    | _, _ => s
  else s

/-! ## PARAM (R5, R6) -/

/-- Recompute the effective cycle (R7); a change of T moves the watch (R6, R96). -/
def recomputeCycle (u : Sub) (s : State) : State :=
  match (s.sub u).serving with
  | none => s
  | some v =>
    let t := effectiveCycle v.tCell (effParam s u).prefCycle
    if t = v.cycle then s
    else moveWatch u (s.modSub u (fun r => { r with serving := some { v with cycle := t } }))

/-- The trigger list of a running handover of `u` with every count at 0 (R117). -/
def zeroTriggerList (u : Sub) (s : State) : State :=
  s.modHxu (fun h => { h with run := h.run.map (fun r =>
    if r.sub = u then { r with triggers := r.triggers.map (fun t => { t with count := 0 }) } else r) })

def subIndex : Sub → Nat
  | .A => 0
  | .B => 1

/-- What the TMC does at a use of the PARAM entry of `u` (R182). The changes that a damage mark makes (R6) are the user's to
apply: `checkParam`, and a rebuild of a cell entry. -/
def readParam (u : Sub) (s : State) : State := useEntry .param (subIndex u) (s.tab.param.get u) (setParam u) s

/-- The PARAM entry of `u` has been marked damaged since `old`. -/
def paramFailed (u : Sub) (old s : State) : Bool := (s.tab.param.get u).damaged && !(old.tab.param.get u).damaged

/-! ## IDENTITY and the paging key (R2, R3) -/

/-- The table indices of the identity entries of a subscription, in index order (R2). -/
def identitiesOf : Sub → List Nat
  | .A => [0, 1, 2, 3]
  | .B => [4, 5, 6, 7]

/-- The subscription an IDENTITY index belongs to (R177). -/
def identitySub (i : Nat) : Sub := if i < 4 then .A else .B

/-- An identity entry that takes part: valid and not damaged (R2, R99). -/
def identityUsable (e : Checked IdentityEntry) : Bool := !e.damaged && e.val.valid

/-- An entry from which K may be derived: PERMANENT, valid and not damaged (R3). -/
def givesKey (e : Checked IdentityEntry) : Bool := identityUsable e && e.val.kind == .permanent

/-- K from the first PERMANENT entry in index order that is valid and not damaged, 0 when there is none (R3). -/
def deriveKey (s : State) (u : Sub) : Nat :=
  match (identitiesOf u).find? (fun i => givesKey (identityAt s i)) with
  | some i => keyOfDigits (identityAt s i).val.digits
  | none => 0

/-- What the TMC does at a use of IDENTITY entry `i` (R182). -/
def readIdentity (i : Nat) (s : State) : State := useEntry .identity i (identityAt s i) (setIdentity i) s

/-- The entries that a derivation of K reads, each a checked use: in index order up to the first that qualifies (R3, R182). An
entry found uncorrectable here is passed over by this same derivation, which is the one that its mark asks for. -/
def readForKey : List Nat → State → State
  | [], s => s
  | i :: l, s =>
    let s := readIdentity i s
    if givesKey (identityAt s i) then s else readForKey l s

/-- Derive K again; a new K is handed to the Paging Monitor, which moves the watch of a CAMPED subscription (R3, R96). -/
def rekey (u : Sub) (s : State) : State :=
  let s := readForKey (identitiesOf u) s
  let k := deriveKey s u
  if k = (s.sub u).pagingKey then s else moveWatch u (s.modSub u (fun r => { r with pagingKey := k }))

/-- A use of IDENTITY entry `i` (R99, R182); found uncorrectable, it is marked damaged and K is derived again (R3). -/
def checkIdentity (i : Nat) (s : State) : State :=
  let t := readIdentity i s
  if (identityAt t i).damaged && !(identityAt s i).damaged then rekey (identitySub i) t else t

/-! ## SCREEN (R137) -/

/-- A use of SCREEN word `i` (R137, R182). -/
def checkScreen (i : Nat) (s : State) : State := useEntry .screen i (screenAt s i) (setScreen i) s

/-- Code `c` is blocked for `u`: at or above the map length, or set in a word that is not damaged (R137). -/
def codeBlocked (s : State) (u : Sub) (len c : Nat) : Bool :=
  decide (len ≤ c) ||
    (let e := screenAt s (16 * subIndex u + c / 16)
     !e.damaged && e.val.getLsbD (c % 16))

end Sys2Proof.Machine
end

