-- ==== Sys2Proof/Machine/Cells.lean ====
section
/-! DEFINITION. The Cell Table: checked reads and their outcome (R71, R72), trigger zeroing (R90) and the changes of a PARAM
write or damage mark (R6), look-up (R59), allocation (R61, R62), pins (R64), the release test (R66) and penalties (R89). -/

namespace Sys2Proof.Machine

/-! ## Entries -/

def cellAt (s : State) (i : Nat) : Cell := s.ctb.cells.getD i Cell.invalid

def setCell (i : Nat) (c : Cell) (s : State) : State := s.modCtb (fun t => { t with cells := t.cells.set i c })

/-- Change a field of an entry; the write leaves its check code fresh. -/
def modCell (i : Nat) (f : Cell → Cell) (s : State) : State := setCell i { f (cellAt s i) with check := .good } s

def Cell.modPart (c : Cell) (u : Sub) (f : CellPart → CellPart) : Cell := { c with part := c.part.set u (f (c.part.get u)) }

/-- The entry holds some pin (R64). -/
def Cell.pinned (c : Cell) : Bool := c.serving.a || c.serving.b || c.hoTarget

/-- The entry holds some SERVING pin. -/
def Cell.serves (c : Cell) : Bool := c.serving.a || c.serving.b

/-- Filter restart (R57). -/
def Cell.restart (c : Cell) : Cell := { c with level := -1120, samples := 0 }

/-- The owned mark of `u` cleared, with its stale count, trigger count and reported mark; the penalty stays (R66). -/
def Cell.disown (c : Cell) (u : Sub) : Cell :=
  c.modPart u (fun p => { p with owned := false, stale := 0, trigger := 0, reported := false })

/-- The set of a key (R58). -/
def setOf (k : Key) : Nat := (k.channel + k.code) % 16

/-- Entry numbers of the whole table, in order. -/
def allEntries : List Nat := List.range 64

/-! ## Checked reads, and the changes of a PARAM damage mark (R6, R71, R72) -/

/-- The part of a rebuilt entry for a subscription (R72). -/
def rebuiltPart (served : Bool) (staleLimit : Nat) : CellPart :=
  if served then { CellPart.clear with owned := true, stale := staleLimit } else CellPart.clear

/-- A serving entry rebuilt from the serving cell key in the record of the subscription it serves (R72). -/
def rebuiltCell (s : State) (c : Cell) : Cell :=
  let u : Sub := if c.serving.a then .A else .B
  let key := match (s.sub u).serving with
    | some v => v.key
    | none => c.key
  { valid := true, key := key, listed := false, barred := false, offset := 0, level := -1120, samples := 0,
    serving := c.serving, hoTarget := c.hoTarget,
    part := ⟨rebuiltPart c.serving.a (effParam s .A).staleLimit, rebuiltPart c.serving.b (effParam s .B).staleLimit⟩,
    check := .good }

/-- Apply `changed` to each subscription whose PARAM has been marked damaged since `old` (R6). -/
def settleParams (changed : Sub → State → State) (old s : State) : State :=
  let a := paramFailed .A old s
  let b := paramFailed .B old s
  let s := if a then changed .A s else s
  if b then changed .B s else s

/-- The PARAM of `u` is read where the entry serves `u` (R72). -/
def readServed (u : Sub) (c : Cell) (s : State) : State := if c.serving.get u then readParam u s else s

/-- A serving entry is rebuilt in its place and counted (R72). The stale limits are a use of the PARAM of each subscription
served (R182); where that use marks an entry damaged, its changes (R6) follow the rebuild. -/
def rebuild (changed : Sub → State → State) (i : Nat) (c : Cell) (s : State) : State :=
  let t := readServed .B c (readServed .A c s)
  settleParams changed s
    ((setCell i (rebuiltCell t c) t).cntCtb (fun n => { n with rebuilds := satInc n.rebuilds }))

/-- An uncorrectable entry (R71): recorded and announced; then rebuilt where it serves a subscription, else invalidated;
the HXU is told where it held HO_TARGET (R73). -/
def cellFail (changed : Sub → State → State) (i : Nat) (s : State) : State :=
  let c := cellAt s i
  let s := tmcFail .cell i s
  let s := if c.serves then rebuild changed i c s else setCell i Cell.invalid s
  if c.hoTarget then s.modHxu (fun h => { h with notice := true }) else s

/-- A use of entry `i` (R71, R182), with what a PARAM damaged by its rebuild changes. -/
def useCellWith (changed : Sub → State → State) (i : Nat) (s : State) : State :=
  let c := cellAt s i
  if c.valid then
    match c.check with
    | .good => s
    | .one => tmcCorrect .cell (setCell i { c with check := .good } s)
    | .two => cellFail changed i s
  else s

/-- Trigger count of `u` to 0 and its reported mark cleared. -/
def Cell.untrigger (c : Cell) (u : Sub) : Cell := c.modPart u (fun p => { p with trigger := 0, reported := false })

/-- Zero the triggers of `u` in every valid entry (R90), each a checked use (R71). -/
def zeroTriggersWith (changed : Sub → State → State) (u : Sub) (s : State) : State :=
  allEntries.foldl (fun s i =>
    let s := useCellWith changed i s
    if (cellAt s i).valid then modCell i (fun c => c.untrigger u) s else s) s

/-- The running state after a PARAM write or damage mark (R6, R117): triggers zeroed, effective cycle recomputed, the
missed-occasion count brought down to S. -/
def paramChangedWith (changed : Sub → State → State) (u : Sub) (s : State) : State :=
  let s := recomputeCycle u (zeroTriggerList u (zeroTriggersWith changed u s))
  s.modSub u (fun r => { r with missed := min r.missed (effParam s u).starvation })

/-- The changes after a PARAM write or damage mark. Zeroing the triggers may find a serving entry uncorrectable, whose rebuild
may find the other PARAM uncorrectable; the changes which that makes find no PARAM left that could fail, so that the chain
ends there. -/
def paramChanged : Sub → State → State := paramChangedWith (paramChangedWith (fun _ s => s))

/-- A use of entry `i`: a valid entry is checked (R71, R182). -/
def useCell (i : Nat) (s : State) : State := useCellWith paramChanged i s

/-- Zero the triggers of `u` in every valid entry (R90). -/
def zeroTriggers (u : Sub) (s : State) : State := zeroTriggersWith paramChanged u s

/-- A use of the PARAM entry of `u` (R182); found uncorrectable, it is marked damaged with the changes of R6. -/
def checkParam (u : Sub) (s : State) : State :=
  let t := readParam u s
  if paramFailed u s t then paramChanged u t else t

/-! ## Look-up (R59) -/

def holdsKey (k : Key) (c : Cell) : Bool := c.valid && c.key == k

/-- Touch the way of entry `i` in its set's pseudo-LRU bits (R60). -/
def touchEntry (i : Nat) (s : State) : State :=
  s.modCtb (fun t => { t with plru := t.plru.modify (i / 4) (plruTouch (i % 4)) })

/-- The four entries of a key's set, in way order. -/
def waysOf (k : Key) : List Nat := (List.range 4).map (fun w => 4 * setOf k + w)

/-- A look-up: every valid way of the set is read and checked, then the way that holds the key hits; `touch` says whether a
hit touches it (R59). -/
def lookup (k : Key) (touch : Bool) (s : State) : State × Option Nat :=
  let s := (waysOf k).foldl (fun s i => useCell i s) s
  match (waysOf k).find? (fun i => holdsKey k (cellAt s i)) with
  | some i => (if touch then touchEntry i s else s, some i)
  | none => (s, none)

/-! ## Allocation (R61, R62) -/

/-- The candidate walk: each candidate is checked; the first without a pin is the victim, and one that its check has
invalidated is free (R61, R71). Answers the entry and whether a valid cell is discarded. -/
def walkWays (base : Nat) : List Nat → State → State × Option (Nat × Bool)
  | [], s => (s, none)
  | w :: l, s =>
    let s := useCell (base + w) s
    let c := cellAt s (base + w)
    if !c.valid then (s, some (base + w, false))
    else if !c.pinned then (s, some (base + w, true))
    else walkWays base l s

/-- Write the way taken with the key and the defaults of R57, count and touch it (R62). -/
def takeWay (k : Key) (i : Nat) (discards : Bool) (s : State) : State :=
  let listed := (cellAt s i).listed
  let s := s.cntCtb (fun n => { n with
    allocations := satInc n.allocations
    replacements := if discards then satInc n.replacements else n.replacements
    listedReplacements := if discards && listed then satInc n.listedReplacements else n.listedReplacements })
  touchEntry i (setCell i { Cell.invalid with valid := true, key := k } s)

/-- An allocation for a key whose look-up missed; none when it is refused (R61, R63, R65). -/
def allocate (k : Key) (s : State) : State × Option Nat :=
  if s.ctb.frozen then (s.cntCtb (fun n => { n with refused := satInc n.refused }), none)
  else match (waysOf k).find? (fun i => !(cellAt s i).valid) with
    | some i => (takeWay k i false s, some i)
    | none =>
      match walkWays (4 * setOf k) (plruWalk (s.ctb.plru.getD (setOf k) ⟨false, false, false⟩)) s with
      | (s, some (i, discards)) => (takeWay k i discards s, some i)
      | (s, none) => (s, none)

/-- A look-up that touches on a hit, then on a miss an allocation. -/
def lookupOrAllocate (k : Key) (s : State) : State × Option Nat :=
  match lookup k true s with
  | (s, some i) => (s, some i)
  | (s, none) => allocate k s

/-! ## Ownership and pins (R64, R66) -/

/-- The release test of an entry that lost an owned mark or a pin (R66). -/
def releaseTest (i : Nat) (s : State) : State :=
  let c := cellAt s i
  if !c.valid || c.pinned || c.part.a.owned || c.part.b.owned then s
  else if c.listed then
    (modCell i Cell.restart s).cntCtb (fun n => { n with filterRestarts := satInc n.filterRestarts })
  else
    (setCell i Cell.invalid s).cntCtb (fun n => { n with staleInvalidations := satInc n.staleInvalidations })

/-- The entry that holds SERVING_u. -/
def servingEntry (s : State) (u : Sub) : Option Nat :=
  allEntries.find? (fun i => (cellAt s i).valid && (cellAt s i).serving.get u)

/-- The entry that holds HO_TARGET. -/
def targetEntry (s : State) : Option Nat := allEntries.find? (fun i => (cellAt s i).valid && (cellAt s i).hoTarget)

/-- SERVING_u leaves entry `i`: with a stale count of 0 the owned mark goes too, then the release test (R66). -/
def unpinServing (u : Sub) (i : Nat) (s : State) : State :=
  let s := useCell i s
  let s := modCell i (fun c =>
    let c := { c with serving := c.serving.set u false }
    if (c.part.get u).stale = 0 then c.disown u else c) s
  releaseTest i s

/-- Release SERVING_u wherever it is held (R64). -/
def releaseServing (u : Sub) (s : State) : State :=
  match servingEntry s u with
  | some i => unpinServing u i s
  | none => s

/-- Set SERVING_u on entry `i` (R64): the new entry gains the pin, is owned and has the full stale allowance; then the old
entry loses it. An entry that already holds the pin is left as it is. -/
def pinServing (u : Sub) (i : Nat) (staleLimit : Nat) (s : State) : State :=
  match servingEntry s u with
  | some j =>
    if j = i then s
    else unpinServing u j (modCell i (fun c =>
      { c with serving := c.serving.set u true }.modPart u (fun p => { p with owned := true, stale := staleLimit })) s)
  | none => modCell i (fun c =>
      { c with serving := c.serving.set u true }.modPart u (fun p => { p with owned := true, stale := staleLimit })) s

/-- Release HO_TARGET where an entry holds it (R64). -/
def releaseTarget (s : State) : State :=
  match targetEntry s with
  | some i => releaseTest i (modCell i (fun c => { c with hoTarget := false }) (useCell i s))
  | none => s

def setFrozen (b : Bool) (s : State) : State := s.modCtb (fun t => { t with frozen := b })

/-! ## Penalties and barred marks (R89, R104) -/

/-- Give `u` a penalty on the entry that holds the key, if a look-up hits (R89). R59 names neither this look-up nor that of a
commit (R121) among those that touch: the model lets neither touch (log entry 47). -/
def givePenalty (u : Sub) (k : Key) (penalty : Nat) (s : State) : State :=
  match lookup k false s with
  | (s, some i) => modCell i (fun c => (c.untrigger u).modPart u (fun p => { p with penalty := penalty })) s
  | (s, none) => s

/-- Write the barred mark of a cell into its entry if a look-up hits; answers whether it hit (R104, R107). -/
def writeBarred (k : Key) (barred : Bool) (s : State) : State × Bool :=
  match lookup k true s with
  | (s, some i) => (modCell i (fun c => { c with barred := barred }) s, true)
  | (s, none) => (s, false)

/-- Clear every part of `u` and its SERVING pin, then test each entry that lost an owned mark or a pin (R75). -/
def detachCells (u : Sub) (s : State) : State :=
  let lost := allEntries.filter (fun i =>
    (cellAt s i).valid && ((cellAt s i).serving.get u || ((cellAt s i).part.get u).owned))
  let s := allEntries.foldl (fun s i =>
    let s := useCell i s
    if (cellAt s i).valid then
      modCell i (fun c => { c with serving := c.serving.set u false, part := c.part.set u CellPart.clear }) s
    else s) s
  lost.foldl (fun s i => releaseTest i s) s

/-- The table after warm reset (R75): discovered entries invalid; listed ones kept with their filter restarted, parts
cleared, pins released and a fresh check code. -/
def Cell.warmReset (c : Cell) : Cell :=
  if c.valid && c.listed then
    { Cell.invalid with valid := true, key := c.key, listed := true, barred := c.barred, offset := c.offset }
  else Cell.invalid

end Sys2Proof.Machine
end

