-- ==== Sys2Proof/Machine/Voice.lean ====
section
/-! DEFINITION. The Voice Playout Buffer's operations: activation and end (R162), the playout buffer (R163), the pull (R164),
the occupancy statistic (R165), the pending uplink frame (R166) and the loops (R167 to R169). -/

namespace Sys2Proof.Machine

/-- Distance of a sequence from next-to-play (R160). -/
def seqDist (q next : Nat) : Nat := (q + 256 - next % 256) % 256

def seqNext (q : Nat) : Nat := (q + 1) % 256

/-- Change the playout record, where there is one. -/
def modPlay (f : Playout → Playout) (s : State) : State := s.modVpb (fun v => { v with play := v.play.map f })

def countUpDiscarded (s : State) : State := s.cntVpb (fun c => { c with upDiscarded := satInc c.upDiscarded })

/-! ## Activation and end (R162) -/

/-- Playout is activated on a VOICE bearer (R162). -/
def activatePlayout (bearer : Nat) (owner : Sub) (s : State) : State :=
  let s := useGlobal s
  let g := effGlobal s
  let s := s.modVpb (fun v => { v with
    play := some { phase := .armed, bearer := bearer, owner := owner, depth := g.depth, buffer := [], last := none, run := 0,
                   upSeq := 0 }
    pendingUp := none })
  match g.mode with
  | .realtime => restartOcc s
  | .accumulate => s

/-- The VPB enters INACTIVE (R162): the buffer's frames are counted and a pending uplink frame is discarded uncounted. A frame
that is bound to a held GRANT is no longer pending and stays with its GRANT (R166). -/
def endPlayout (s : State) : State :=
  match s.vpb.play with
  | none => s
  | some p =>
    (s.modVpb (fun v => { v with play := none, pendingUp := none })).cntVpb
      (fun c => { c with droppedAtEnd := satAdd c.droppedAtEnd p.buffer.length })

/-- The first undamaged VOICE bearer that is ACTIVE or HELD (R129, R130). -/
def voiceBearer (s : State) : Option Nat :=
  (List.range 32).find? (fun i => bearerLive (bearerAt s i) && (bearerAt s i).val.cls == .voice)

/-- Playout ends when no undamaged VOICE bearer is ACTIVE or HELD (R162). -/
def endIfSilent (s : State) : State := if (voiceBearer s).isNone then endPlayout s else s

/-! ## The playout buffer (R163) -/

/-- Put a frame at its place by distance. -/
def insertByDist (next : Nat) (f : VoiceFrame) : List VoiceFrame → List VoiceFrame
  | [] => [f]
  | g :: l => if seqDist f.seq next < seqDist g.seq next then f :: g :: l else g :: insertByDist next f l

/-- A frame examined in PREFILL or PLAYING (R163): late, duplicate, room, full. -/
def examineFrame (f : VoiceFrame) (next : Nat) (p : Playout) (s : State) : State :=
  if 128 ≤ seqDist f.seq next then s.cntVpb (fun c => { c with late := satInc c.late })
  else if p.buffer.any (fun g => g.seq == f.seq) then s.cntVpb (fun c => { c with duplicate := satInc c.duplicate })
  else
    let l := insertByDist next f p.buffer
    if p.buffer.length < p.depth then
      let phase := match p.phase with
        | .prefill n => if p.depth / 2 ≤ l.length then .playing n else .prefill n
        | ph => ph
      modPlay (fun p => { p with buffer := l, phase := phase }) s
    else match l with
      | [] => s
      | g :: rest =>
        let phase := match p.phase with
          | .prefill _ => Phase.prefill (seqNext g.seq)
          | _ => Phase.playing (seqNext g.seq)
        (modPlay (fun p => { p with buffer := rest, phase := phase }) s).cntVpb
          (fun c => { c with overflow := satInc c.overflow })

/-- A voice frame offered to the playout buffer (R163). -/
def offerFrame (f : VoiceFrame) (s : State) : State :=
  match s.vpb.play with
  | none => s
  | some p =>
    match p.phase with
    | .armed =>
      modPlay (fun p => { p with
        buffer := [f], phase := if p.depth / 2 ≤ 1 then .playing f.seq else .prefill f.seq }) s
    | .prefill next => examineFrame f next p s
    | .playing next => examineFrame f next p s

/-! ## The pull (R164, R165) -/

/-- The smaller, or larger, of a sample and what was held. -/
def lowOf (n : Nat) : Option Nat → Option Nat
  | none => some n
  | some m => some (min n m)

def highOf (n : Nat) : Option Nat → Option Nat
  | none => some n
  | some m => some (max n m)

/-- Take an occupancy sample by mode (R165). -/
def sampleOcc (n : Nat) (s : State) : State :=
  let s := useGlobal s
  match (effGlobal s).mode with
  | .realtime =>
    s.modVpb (fun v => { v with occ := { v.occ with recent := (v.occ.recent ++ [n]).drop (v.occ.recent.length + 1 - 32) } })
  | .accumulate =>
    s.modVpb (fun v => { v with occ :=
      { v.occ with count := satInc v.occ.count, low := lowOf n v.occ.low, high := highOf n v.occ.high } })

/-- The frame delivered in PLAYING with next-to-play `next` (R164). -/
def playNext (next : Nat) (p : Playout) (s : State) : State :=
  match p.buffer.find? (fun g => g.seq == next) with
  | some g =>
    (sendCodec (.frame g.payload) (modPlay (fun p => { p with
      buffer := p.buffer.filter (fun h => h.seq != next), last := some g.payload, run := 0,
      phase := .playing (seqNext next) }) s)).cntVpb (fun c => { c with played := satInc c.played })
  | none =>
    match p.last, decide (p.run < 3) with
    | some l, true =>
      (sendCodec (.conceal l (p.run + 1)) (modPlay (fun p => { p with run := p.run + 1, phase := .playing (seqNext next) })
        s)).cntVpb (fun c => { c with concealed := satInc c.concealed })
    | _, _ =>
      (sendCodec .silence (modPlay (fun p => { p with phase := .playing (seqNext next) }) s)).cntVpb
        (fun c => { c with silent := satInc c.silent })

/-- The pull delivers one frame to the codec (R164), its occupancy sampled first (R165). -/
def pull (s : State) : State :=
  match s.vpb.play with
  | none => sendCodec .silence s
  | some p =>
    let s := sampleOcc p.buffer.length s
    match p.phase with
    | .armed => sendCodec .silence s
    | .prefill _ => sendCodec .silence s
    | .playing next => playNext next p s

/-! ## Uplink voice (R166, R169) -/

/-- A frame becomes the pending uplink frame; an older pending one is discarded and counted (R166). -/
def setPendingUp (f : VoiceFrame) (s : State) : State :=
  let s := if s.vpb.pendingUp.isSome then countUpDiscarded s else s
  s.modVpb (fun v => { v with pendingUp := some f })

/-- Take the next uplink sequence (R166). -/
def takeUpSeq (s : State) : State := modPlay (fun p => { p with upSeq := seqNext p.upSeq }) s

/-- The codec's uplink frame of one period (R166, R169). -/
def takeCodecFrame (payload : Octets) (s : State) : State :=
  match s.vpb.play with
  | none => s
  | some p =>
    let f : VoiceFrame := { seq := p.upSeq, payload := payload }
    match s.vpb.codecLoop, s.vpb.radioLoop.isSome with
    | false, false => setPendingUp f (takeUpSeq s)
    | true, _ => offerFrame f (takeUpSeq s)
    | false, true => s

/-- A downlink voice frame from the Bearer Router (R163, R169). -/
def takeDownlinkVoice (f : VoiceFrame) (s : State) : State :=
  match s.vpb.play with
  | none => s
  | some _ =>
    match s.vpb.codecLoop, s.vpb.radioLoop.isSome with
    | false, false => offerFrame f s
    | true, false => s.cntVpb (fun c => { c with loopDiscards := satInc c.loopDiscards })
    | false, true => setPendingUp f (offerFrame f s)
    | true, true => setPendingUp f s

/-! ## Loops (R167, R168) -/

/-- LOOP_CHANGED: argument 1 is 0 for CODEC_LOOP and 1 for RADIO_LOOP, argument 2 the new state. -/
def postLoop (u : Option Sub) (which : Nat) (closed : Bool) (s : State) : State :=
  post .loopChanged u which (if closed then 1 else 0) s

/-- Open RADIO_LOOP if it is closed; the change is posted when `announce` is set (R168). -/
def openRadioLoop (announce : Bool) (s : State) : State :=
  match s.vpb.radioLoop with
  | none => s
  | some u =>
    let s := s.modVpb (fun v => { v with radioLoop := none })
    if announce then postLoop (some u) 1 false s else s

/-- Open RADIO_LOOP if it is closed with loop subscription `u` (R14, R17). -/
def openLoopOf (u : Sub) (announce : Bool) (s : State) : State :=
  if s.vpb.radioLoop = some u then openRadioLoop announce s else s

/-- Close RADIO_LOOP with loop subscription `u` if it is open (R168). -/
def closeRadioLoop (u : Sub) (s : State) : State :=
  match s.vpb.radioLoop with
  | some _ => s
  | none => postLoop (some u) 1 true (s.modVpb (fun v => { v with radioLoop := some u }))

/-- Close or open CODEC_LOOP, posting a change (R167). -/
def setCodecLoop (closed : Bool) (s : State) : State :=
  if s.vpb.codecLoop = closed then s
  else postLoop none 0 closed (s.modVpb (fun v => { v with codecLoop := closed }))

end Sys2Proof.Machine
end

