-- ==== Sys2Proof/Machine/Bearers.lean ====
section
/-! DEFINITION. The Bearer Router's operations: the checked use of bearer entries (R129), their changes of state (R131), the
screening check (R137), the uplink queues (R139 to R142), and the STORE_READY offered to a queue (R154). -/

namespace Sys2Proof.Machine

/-! ## Bearer entries -/

/-- A use of BEARER entry `i` (R129, R182); the damage of the playout bearer ends the playout (R162). -/
def checkBearer (i : Nat) (s : State) : State :=
  let t := useEntry .bearer i (bearerAt s i) (setBearer i) s
  if (bearerAt t i).damaged && !(bearerAt s i).damaged then endIfSilent t else t

/-- Change the state of every undamaged entry of `u` whose state satisfies `p` (R131). Each is read and checked; damaged
entries are passed over. -/
def changeBearers (u : Sub) (p : BearerState → Bool) (st : BearerState) (s : State) : State :=
  endIfSilent ((List.range 32).foldl (fun s i =>
    let s := checkBearer i s
    let e := bearerAt s i
    if !e.damaged && e.val.owner == u && p e.val.state then setBearer i (.fresh { e.val with state := st }) s else s) s)

/-- Link-end effects and detach: every entry owned by `u` becomes IDLE (R131). -/
def idleBearers (u : Sub) (s : State) : State := changeBearers u (fun _ => true) .idle s

/-- Acceptance of a handover: ACTIVE becomes HELD (R131). -/
def holdBearers (u : Sub) (s : State) : State := changeBearers u (fun st => st == .active) .held s

/-- Commit or restore: HELD becomes ACTIVE (R131). -/
def resumeBearers (u : Sub) (s : State) : State := changeBearers u (fun st => st == .held) .active s

/-! ## Screening (R137) -/

/-- A screening check of codes base to base + span - 1 (R137): the words that hold covered codes below the map length are
read and checked; answers true when permitted. -/
def screeningCheck (u : Sub) (base span : Nat) (s : State) : State × Bool :=
  let s := checkParam u s
  let len := (effParam s u).screenLen
  let codes := (List.range span).map (fun i => base + i)
  let words := ((codes.filter (fun c => decide (c < len))).map (fun c => 16 * subIndex u + c / 16))
  let s := words.foldl (fun s i => checkScreen i s) s
  (s, codes.all (fun c => !codeBlocked s u len c))

/-! ## Uplink queues -/

def queueOf (s : State) (u : Sub) : List UplinkFrame := s.brt.queues.get u

def setQueue (u : Sub) (l : List UplinkFrame) (s : State) : State :=
  s.modBrt (fun b => { b with queues := b.queues.set u l })

/-- A frame joins the tail of a queue, or finds it full and is discarded and counted (R139). Answers whether it joined. -/
def joinQueue (u : Sub) (f : UplinkFrame) (s : State) : State × Bool :=
  if (queueOf s u).length < 16 then (setQueue u (queueOf s u ++ [f]) s, true)
  else (s.cntBrt (fun c => { c with queueFull := c.queueFull.set u (satInc (c.queueFull.get u)) }), false)

/-- A handover report goes to the head; a full queue loses its tail frame first (R140). -/
def placeHead (u : Sub) (f : UplinkFrame) (s : State) : State :=
  let q := queueOf s u
  if q.length < 16 then setQueue u (f :: q) s
  else (setQueue u (f :: q.take 15) s).cntBrt (fun c => { c with tailDisplacements := satInc c.tailDisplacements })

/-- Remove every frame and count them (R142). -/
def flushQueue (u : Sub) (s : State) : State :=
  (setQueue u [] s).cntBrt (fun c => { c with flushed := satAdd c.flushed (queueOf s u).length })

/-- The head frame leaves on the FL, unless the subscription is in HANDOVER (R141). -/
def drainQueue (u : Sub) (fn : Nat) (s : State) : State :=
  if (s.sub u).state = .handover then s
  else match queueOf s u with
    | [] => s
    | f :: l =>
      (sendFl (.uplink u fn f (freeCount s) (freeRecords s)) (setQueue u l s)).cntBrt
        (fun c => { c with sent := c.sent.set u (satInc (c.sent.get u)) })

/-- An uplink frame is refused (R138). -/
def upDiscard (s : State) : State := s.cntBrt (fun c => { c with upDiscards := satInc c.upDiscards })

/-- A downlink frame is discarded (R132). -/
def downDiscard (s : State) : State := s.cntBrt (fun c => { c with downDiscards := satInc c.downDiscards })

/-- Offer a STORE_READY to the queue of `u` while it holds a link, is READY_DUE and no STORE_READY of it waits in a REPLY
(R154). -/
def offerStoreReady (u : Sub) (s : State) : State :=
  if holdsLink s u && (s.sub u).notice == .readyDue && !storeReadyWaiting s u then
    match joinQueue u .storeReady s with
    | (s, true) => setNotice u .storeOk s
    | (s, false) => s
  else s

end Sys2Proof.Machine
end

