-- ==== Sys2Proof/Machine/Paging.lean ====
section
/-! DEFINITION. The Paging Monitor's operations: missed claims and insertion with its refusal and displacement (R38, R39,
R46), the chains of watches, gaps and searches (R51, R96, R110), the area test (R105), camping (R10), reselection (R106 to
R109), the taking of a PAGE (R99 to R101) and the offer of a reply item (R102). -/

namespace Sys2Proof.Machine

/-! ## Missed claims (R46, R47) -/

/-- Reselection of `u` fails (R109): flag and candidate cleared, the candidate penalised, RESELECT_FAILED posted. -/
def reselectFail (u : Sub) (cause : Nat) (s : State) : State :=
  match (s.sub u).candidate with
  | none => s.modSub u (fun r => { r with reselecting := false })
  | some k =>
    let s := s.modSub u (fun r => { r with reselecting := false, candidate := none })
    let s := checkParam u s
    let s := givePenalty u k (effParam s u).penalty s
    (post .reselectFailed (some u) cause k.channel s).cntPgm (fun c => { c with reselFailed := satInc c.reselFailed })

/-- A REACQUIRE of `u` has ended without a result (R50): the initial acquisition of a SEARCH subscription ends (R10), the
reselection of a CAMPED one fails with cause 2 (R109). The search chain is started where the claim's end is handled. -/
def acquisitionSpent (u : Sub) (s : State) : State :=
  match (s.sub u).state with
  | .search => s.modSub u (fun r => { r with candidate := none })
  | .camped => if (s.sub u).reselecting then reselectFail u 2 s else s
  | _ => s

def countWatchMissed (u : Sub) (s : State) : State :=
  s.cntRta (fun c => { c with watchesMissed := c.watchesMissed.set u (satInc (c.watchesMissed.get u)) })

/-- The missed effect of a claim's kind (R46, R47), less the renewal. -/
def missedEffect (c : Claim) (s : State) : State :=
  match c.kind, c.owner with
  | .pageWatch, .sub u =>
    let s := checkParam u s
    countWatchMissed u (s.modSub u (fun r => { r with missed := min (r.missed + 1) (effParam s u).starvation }))
  | .delivery, _ => s.cntRta (fun c => { c with deliveriesMissed := satInc c.deliveriesMissed })
  | .reply, _ => s.cntRta (fun c => { c with repliesMissed := satInc c.repliesMissed })
  | .measGap, _ => s.cntRta (fun c => { c with gapsMissed := satInc c.gapsMissed })
  | .search, _ => s.cntRta (fun c => { c with searchesMissed := satInc c.searchesMissed })
  | .reacquire, .sub u => acquisitionSpent u s
  | _, _ => s

/-- The renewal after an end by displacement or refusal is put off to the next frame start (R39). -/
def deferRenewal (c : Claim) (s : State) : State :=
  match c.kind, c.owner with
  | .pageWatch, .sub u => s.modRec u (fun r => { r with watchDue := true })
  | .measGap, .sub u => s.modRec u (fun r => { r with gapDue := true })
  | .search, _ => s.modPgm (fun p => { p with searchDue := true })
  | _, _ => s

/-! ## Insertion (R38, R39) -/

def countDisplaced (s : State) : State := s.cntRta (fun c => { c with displaced := satInc c.displaced })

/-- The claim merges into the one with its owner, kind and start (R38). -/
def mergeClaim (c : Claim) (s : State) : State :=
  let s := mapClaims (sameClaim c) (fun e => { e with length := max e.length c.length }) s
  let s := appendItems (sameClaim c) c.items s
  setClaims s.rta.claims s

/-- The lowest of the 17 claims is displaced (R39). -/
def displaceLowest (c : Claim) (s : State) : State :=
  let c := { c with serial := s.rta.nextSerial }
  let d := chooseDisplaced s c s.rta.claims
  let s := if d = c then s else placeClaim c (removeClaims (fun x => x.serial == d.serial) s)
  deferRenewal d (missedEffect d (countDisplaced s))

/-- The read of both PARAM entries by which the priorities of a displacement are told (R39, R41). -/
def checkPriorities (s : State) : State := checkParam .B (checkParam .A s)

/-- Insertion into a full list (R39). A damage found by the read of the priorities may move a watch, so the list is looked at
again after it. -/
def displaceInsert (c : Claim) (s : State) : State :=
  let s := checkPriorities s
  if s.rta.claims.any (sameClaim c) then mergeClaim c s
  else if s.rta.claims.length < 16 then placeClaim c s
  else displaceLowest c s

/-- A claim with this start is refused: it is now or too far (R38). -/
def startRefused (s : State) (start : Nat) : Bool :=
  decide (fnDist s.ftb.fn start = 0) || decide (511 < fnDist s.ftb.fn start)

/-- Insert a claim (R38): refused when its start is now or too far, merged, placed, or placed with a displacement. -/
def insertClaim (c : Claim) (s : State) : State :=
  if startRefused s c.start then
    deferRenewal c (missedEffect c (s.cntRta (fun n => { n with late := satInc n.late })))
  else if s.rta.claims.any (sameClaim c) then mergeClaim c s
  else if s.rta.claims.length < 16 then placeClaim c s
  else displaceInsert c s

/-! ## Page watches (R96) -/

/-- Insert a watch at the next occasion (R95). Into a full list it goes by a displacement, whose read of the priorities may
find PARAM damaged and change T: the occasion is taken after that read (R6). -/
def insertWatch (u : Sub) (s : State) : State :=
  let s := s.modRec u (fun r => { r with watchDue := false })
  let s := if s.rta.claims.length < 16 then s else checkPriorities s
  match nextOccasion s u with
  | some n => insertClaim (watchClaim u n) s
  | none => s

/-- The next watch after one has ended, while the subscription is CAMPED (R96). -/
def renewWatch (u : Sub) (s : State) : State := if (s.sub u).state = .camped then insertWatch u s else s

/-! ## Measurement gaps (R51) -/

/-- Insert a gap `k` frames ahead. -/
def insertGap (u : Sub) (k : Nat) (s : State) : State :=
  insertClaim (newClaim (.sub u) .measGap (fnAdd s.ftb.fn k) 1 .none) (s.modRec u (fun r => { r with gapDue := false }))

/-- A gap at FN + gap period of PARAM. -/
def insertPeriodGap (u : Sub) (s : State) : State :=
  let s := checkParam u s
  insertGap u (effParam s u).gapPeriod s

/-- Entry to CONNECTED holding no gap. -/
def startGap (u : Sub) (s : State) : State := if hasClaim s u .measGap then s else insertPeriodGap u s

/-- The weak flag set while CAMPED, holding no gap. -/
def startWeakGap (u : Sub) (s : State) : State := if hasClaim s u .measGap then s else insertGap u 32 s

/-- After a gap has ended, granted or missed. -/
def renewGap (u : Sub) (s : State) : State :=
  match (s.sub u).state with
  | .connected => startGap u s
  | .camped => if (s.sub u).weak then startWeakGap u s else s
  | _ => s

/-! ## Search (R110) -/

def setChain (u : Sub) (c : Option Chain) (s : State) : State := s.modRec u (fun r => { r with chain := c })

/-- A SEARCH claim owned by COMMON. -/
def commonSearch (c : Claim) : Bool := c.kind == .search && c.owner == .common

/-- Start the search chain of `u`, which is in SEARCH with no candidate key: it joins a COMMON chain or claim, makes one of the
other's own chain, or has one of its own. -/
def startSearch (u : Sub) (s : State) : State :=
  if s.rta.claims.any commonSearch then setChain u (some .common) s
  else match inSearch s u.other, (s.pgm.recs.get u.other).chain with
    | true, some .common => setChain u (some .common) s
    | true, some (.own start) =>
      let held := hasClaim s u.other .search
      let s := setChain u (some .common) (setChain u.other (some .common) (removeClaims (ownKind u.other .search) s))
      if held then insertClaim (newClaim .common .search start 4 .none) s else s
    | _, _ =>
      let start := fnAdd s.ftb.fn 1
      insertClaim (newClaim (.sub u) .search start 4 .none) (setChain u (some (.own start)) s)

/-- Start the chain where the condition holds and no chain runs. -/
def startSearchIfDue (u : Sub) (s : State) : State :=
  if inSearch s u && (s.pgm.recs.get u).chain.isNone then startSearch u s else s

/-- The next SEARCH claim, 61 frames after the frame in which the last one's end is taken. -/
def renewSearch (s : State) : State :=
  let start := fnAdd s.ftb.fn 61
  let s := s.modPgm (fun p => { p with searchDue := false })
  match inSearch s .A, inSearch s .B with
  | true, true =>
    insertClaim (newClaim .common .search start 4 .none) (setChain .A (some .common) (setChain .B (some .common) s))
  | true, false => insertClaim (newClaim (.sub .A) .search start 4 .none) (setChain .A (some (.own start)) s)
  | false, true => insertClaim (newClaim (.sub .B) .search start 4 .none) (setChain .B (some (.own start)) s)
  | false, false => s

/-- `u` has left SEARCH (R40): its own claim is removed, and a COMMON claim when the other is not in SEARCH either. A renewal
put off is dropped when the other is not in the condition (R110). That the claim goes at a detach although R56 keeps COMMON
claims, and stays while the other is in SEARCH with a candidate key although R110 and R112 end the chain, is log entry 46. -/
def leaveSearch (u : Sub) (s : State) : State :=
  let s := removeClaims (ownKind u .search) (setChain u none s)
  let s := if inSearch s u.other then s else s.modPgm (fun p => { p with searchDue := false })
  if (s.sub u.other).state = .search then s else removeClaims (fun c => c.kind == .search) s

/-- The renewal of a claim that has ended, made at once. -/
def renewClaim (c : Claim) (s : State) : State :=
  match c.kind, c.owner with
  | .pageWatch, .sub u => renewWatch u s
  | .measGap, .sub u => renewGap u s
  | .search, _ => renewSearch s
  | .reacquire, .sub u => startSearchIfDue u s
  | _, _ => s

/-! ## Serving fields and the area test (R7, R105) -/

/-- The area test, made each time the serving area code is set. -/
def areaTest (u : Sub) (s : State) : State :=
  let s := checkParam u s
  match (s.sub u).serving with
  | none => s
  | some v =>
    let reg := (effParam s u).areaCode
    if v.area = reg then s.modRec u (fun r => { r with announced := none })
    else if (s.pgm.recs.get u).announced = some v.area then s
    else post .areaChanged (some u) v.area reg (s.modRec u (fun r => { r with announced := some v.area }))

/-- Set the five serving fields (R7), then make the area test. -/
def setServing (u : Sub) (key : Key) (area tCell g : Nat) (s : State) : State :=
  let s := checkParam u s
  let v : Serving :=
    { key := key, area := area, tCell := tCell, g := g, cycle := effectiveCycle tCell (effParam s u).prefCycle }
  areaTest u (s.modSub u (fun r => { r with serving := some v }))

/-! ## Camping (R10) and reselection (R106 to R109) -/

/-- Look up or allocate the entry of a found cell, mark it not barred and pin it SERVING for `u`; false when the table can
supply no entry. -/
def takeServingCell (u : Sub) (k : Key) (s : State) : State × Bool :=
  match lookupOrAllocate k s with
  | (s, none) => (s, false)
  | (s, some i) =>
    let s := checkParam u (modCell i (fun c => { c with barred := false }) s)
    (pinServing u i (effParam s u).staleLimit s, true)

/-- A SEARCH subscription camps on a found cell that is not barred (R10); false when it stays in SEARCH. -/
def camp (u : Sub) (r : AcqResult) (s : State) : State × Bool :=
  match takeServingCell u r.key s with
  | (s, false) => (s, false)
  | (s, true) =>
    let s := setServing u r.key r.area r.tCell r.g s
    let s := leaveSearch u (s.modSub u (fun x => { x with candidate := none, state := .camped }))
    (insertWatch u (post .camped (some u) r.key.channel r.key.code s), true)

/-- A found, barred cell: its mark is written where its entry is held. -/
def markBarred (k : Key) (s : State) : State := (writeBarred k true s).1

/-- The end of an initial acquisition that does not camp: the chain of searches starts (R10). -/
def initialFail (u : Sub) (s : State) : State :=
  startSearchIfDue u (s.modSub u (fun r => { r with candidate := none }))

/-- A taken REACQUIRE result for a SEARCH subscription (R10). -/
def initialResult (u : Sub) (r : AcqResult) (s : State) : State :=
  if r.found then
    if r.barred then initialFail u (markBarred r.key s)
    else match camp u r s with
      | (s, true) => s
      | (s, false) => initialFail u s
  else initialFail u s

/-- A reselection offer (R106). -/
def takeOffer (u : Sub) (k : Key) (s : State) : State :=
  if (s.sub u).state = .camped ∧ (s.sub u).reselecting = false then
    let s := s.modSub u (fun r => { r with reselecting := true, candidate := some k })
    (insertClaim (newClaim (.sub u) .reacquire (fnAdd s.ftb.fn 1) 32 .none) s).cntPgm
      (fun c => { c with reselStarted := satInc c.reselStarted })
  else s

/-- T and G, which together with K give the occasion (R95). -/
def rhythm (s : State) (u : Sub) : Option (Nat × Nat) := (s.sub u).serving.map (fun v => (v.cycle, v.g))

/-- The watch follows new serving fields: it is moved where T or G has changed from `old` (R96). -/
def followRhythm (u : Sub) (old : Option (Nat × Nat)) (s : State) : State :=
  if rhythm s u = old then s else moveWatch u s

/-- A reselection succeeds on a found cell that is not barred (R108), or fails with cause 3. -/
def reselectFound (u : Sub) (r : AcqResult) (s : State) : State :=
  match takeServingCell u r.key s with
  | (s, false) => reselectFail u 3 s
  | (s, true) =>
    let old := rhythm s u
    let s := setServing u r.key r.area r.tCell r.g s
    let s := zeroTriggers u (s.modSub u (fun x => { x with reselecting := false, candidate := none }))
    let s := (post .reselected (some u) r.key.channel r.key.code s).cntPgm
      (fun c => { c with reselSucceeded := satInc c.reselSucceeded })
    followRhythm u old s

/-- A taken REACQUIRE result for a CAMPED subscription that is reselecting (R108, R109). The look-up of its cell touches on a
hit whatever the outcome, since the result ends the reselection (R59). -/
def reselectResult (u : Sub) (r : AcqResult) (s : State) : State :=
  if r.found then
    if r.barred then reselectFail u 1 (markBarred r.key s) else reselectFound u r s
  else reselectFail u 0 (lookup r.key true s).1

/-- A taken SEARCH result offered to one subscription (R110). -/
def searchOffer (u : Sub) (r : AcqResult) (s : State) : State :=
  if inSearch s u && r.found then
    if r.barred then markBarred r.key s else (camp u r s).1
  else s

/-- A result that is not taken: counted, and the bar of a found cell written where its entry is held (R107). With the barred flag
clear nothing is written (6.10 step 4), and no look-up is made (log entry 54). -/
def discardResult (r : AcqResult) (s : State) : State :=
  let s := if r.found && r.barred then markBarred r.key s else s
  s.cntPgm (fun c => { c with resultsDiscarded := satInc c.resultsDiscarded })

/-! ## The taking of a PAGE (R99 to R101) -/

/-- What the items of a PAGE have announced so far: the largest n permitted (p), the largest n matched (m), and the
TEXT_REFUSE items in item order. -/
structure PageTally where
  p : Nat
  m : Nat
  refusals : List ReplyItem
deriving DecidableEq, Repr

/-- An identity entry holds the item's kind and value. -/
def identityMatches (k : IdKind) (i : PageItem) (e : Checked IdentityEntry) : Bool :=
  identityUsable e && e.val.kind == k &&
    match k with
    | .permanent => e.val.digits == i.digits
    | .temporary => e.val.number == i.number

/-- The item is matched against the identity entries of `u`, each read being a checked use (R99). -/
def matchItem (u : Sub) (k : IdKind) (i : PageItem) (s : State) : State × Bool :=
  let s := (identitiesOf u).foldl (fun s j => checkIdentity j s) s
  (s, (identitiesOf u).any (fun j => identityMatches k i (identityAt s j)))

/-- A damaged identity entry of the item's kind (R100). -/
def damagedOfKind (s : State) (u : Sub) (k : IdKind) : Bool :=
  (identitiesOf u).any (fun j => (identityAt s j).damaged && (identityAt s j).val.kind == k)

def IdKind.code : IdKind → Nat
  | .permanent => 0
  | .temporary => 1

/-- The result of one item (R99, R100). -/
def pageItem (u : Sub) (i : PageItem) (x : State × PageTally) : State × PageTally :=
  let (s, t) := x
  match pageItemKind i with
  | none => (s.cntPgm (fun c => { c with malformedItems := satInc c.malformedItems }), t)
  | some k =>
    match matchItem u k i s with
    | (s, false) =>
      if damagedOfKind s u k then (post .pageUnverified (some u) (IdKind.code k) i.ref s, t)
      else (s.cntPgm (fun c => { c with itemsUnmatched := satInc c.itemsUnmatched }), t)
    | (s, true) =>
      match screeningCheck u i.base i.span s with
      | (s, true) =>
        if i.follows = 0 then (post .paged (some u) i.base i.ref s, t)
        else (s, { t with p := max t.p i.follows, m := max t.m i.follows })
      | (s, false) =>
        let s := post .screened (some u) i.base i.ref s
        if i.follows = 0 then (s, t)
        else (s, { t with m := max t.m i.follows, refusals := t.refusals ++ [.refusePage u i.ref] })

/-- Insert a REPLY of `u` with a list of items, of which a fifth and later ones are refused and counted (R35). Where the REPLY is
itself refused or is displaced at once, its items are discarded with it (R46) and none is counted as refused (log entry 61). -/
def insertReply (u : Sub) (start : Nat) (items : List ReplyItem) (s : State) : State :=
  let c := newClaim (.sub u) .reply start 1 (.items (items.take 4))
  if startRefused s start then insertClaim c s
  else appendItems (sameClaim c) (items.drop 4) (insertClaim c s)

/-- A REPLY of `u` in the list, not yet decided, that holds its STORE_READY: the item that a page may move (R101). -/
def movableNotice (s : State) (u : Sub) (c : Claim) : Bool :=
  ownKind u .reply c && c.items.contains (.storeReady u) && !decided s c

/-- The claims of the occasion `fn` (R101): delivery, reply, window. A STORE_READY whose REPLY has been decided already is not
moved and the page places none, also while a warm-up holds that REPLY's GRANT (log entry 48). The REPLY that gave its STORE_READY is
removed before the new one is inserted, so that in a full list it makes the room (log entry 62). -/
def placePageClaims (u : Sub) (fn : Nat) (t : PageTally) (s : State) : State :=
  let s := if t.p = 0 then s else insertClaim (newClaim (.sub u) .delivery (fnAdd fn 1) t.p .none) s
  if t.m = 0 then s
  else
    let notice := if s.rta.claims.any (movableNotice s u) then [ReplyItem.storeReady u] else []
    let s := removeClaims (movableNotice s u) s
    let start := fnAdd fn (t.m + 1)
    let s := insertReply u start (notice ++ t.refusals) s
    let w : Window :=
      { occasion := fn, deliveryEnd := if t.p = 0 then none else some (fnAdd fn t.p), replyFn := start }
    syncWindow u (s.modRec u (fun r => { r with window := some w }))

/-- A PAGE is taken (R98): its first 16 items are handled, then the claims are placed. -/
def takePage (u : Sub) (fn : Nat) (items : List PageItem) (s : State) : State :=
  let s := (s.modRec u (fun r => { r with readOccasion := none })).cntPgm (fun c => { c with
    pagesTaken := satInc c.pagesTaken, itemsIgnored := satAdd c.itemsIgnored (items.length - 16) })
  let (s, t) := (items.take 16).foldl (fun x i => pageItem u i x) (s, { p := 0, m := 0, refusals := [] })
  placePageClaims u fn t s

/-! ## Granted watches and reply items (R97, R102) -/

/-- A watch of `u` has its GRANT sent in frame `fn` (R97): the read occasion is set, and a due STORE_READY placed. -/
def watchGranted (u : Sub) (fn : Nat) (s : State) : State :=
  let s := s.modRec u (fun r => { r with readOccasion := some fn })
  if (s.sub u).notice = .readyDue ∧ storeReadyWaiting s u = false then
    insertReply u (fnAdd fn 1) [.storeReady u] s
  else s

/-- An item of the Text Store for the segment carried by the IDLE_TEXT of frame `fn`: added to the reply window's claim
when the frame lies in the window's delivery and the claim has room (R102). Answers whether it was placed. An item offered after the
REPLY has been decided is not, also while a warm-up holds that REPLY's GRANT (log entry 48). -/
def offerReplyItem (u : Sub) (fn : Nat) (item : ReplyItem) (s : State) : State × Bool :=
  let unplaced := (s.cntPgm (fun c => { c with itemsUnplaced := satInc c.itemsUnplaced }), false)
  match (s.pgm.recs.get u).window with
  | none => unplaced
  | some w =>
    match w.deliveryEnd with
    | none => unplaced
    | some e =>
      if 1 ≤ fnDist w.occasion fn ∧ fnDist w.occasion fn ≤ fnDist w.occasion e then
        match s.rta.claims.find? (isReplyAt u w.replyFn) with
        | some c =>
          if decided s c then unplaced
          else (appendItems (isReplyAt u w.replyFn) [item] s, decide (c.items.length < 4))
        | none => unplaced
      else unplaced

end Sys2Proof.Machine
end

