-- ==== Sys2Proof/Machine/Texts.lean ====
section
/-! DEFINITION. The Text Store's operations: examination and storing of a segment (R147 to R149), its answer (R150, R151), the
store notice (R152 to R154), expiry (R155, R156) and taking (R157). -/

namespace Sys2Proof.Machine

/-- The path of a segment, which decides where its answer goes (R147): idle with the FN that the IDLE_TEXT carried, or
connected. -/
inductive TextPath where
  | idle (fn : Nat)
  | connected
deriving DecidableEq, Repr

/-- An answer of the Text Store for a segment (R150). -/
inductive TextAnswer where
  | ack
  | refuse (cause : Nat)
deriving DecidableEq, Repr

/-! ## Groups and slots (R145, R146) -/

/-- The group holds the key (R146). -/
def Group.hasKey (g : Group) (u : Sub) (sender : List Nat) (reference : Nat) : Bool :=
  g.sub == u && g.sender == sender && g.reference == reference

/-- The segment belongs to the group. -/
def Group.owns (g : Group) (x : Segment) : Bool := g.hasKey x.sub x.sender x.reference

def groupAt (s : State) (i : Nat) : Option Group := s.txs.groups.getD i none

def setGroup (i : Nat) (g : Option Group) (s : State) : State :=
  s.modTxs (fun t => { t with groups := t.groups.set i g })

/-- The record number of the group that holds a key. -/
def findGroup (s : State) (u : Sub) (sender : List Nat) (reference : Nat) : Option (Nat × Group) :=
  (List.range 12).findSome? (fun i =>
    match groupAt s i with
    | some g => if g.hasKey u sender reference then some (i, g) else none
    | none => none)

/-- The lowest-numbered free group record. -/
def freeRecord (s : State) : Option Nat := (List.range 12).find? (fun i => (groupAt s i).isNone)

/-- The free slots, in slot order. -/
def freeSlots (s : State) : List Nat := (List.range 48).filter (fun i => (s.txs.slots.getD i none).isNone)

/-- The free slot that the TXS chooses: a free value (R149, log entry 8). -/
def chosenSlot (s : State) : Nat :=
  (freeSlots s).getD (Config.freeSlotPick s.txs.picks % (freeSlots s).length) 0

/-- Put an index into a set kept in rising order. -/
def insertIndex (n : Nat) : List Nat → List Nat
  | [] => [n]
  | m :: l => if n < m then n :: m :: l else if n = m then m :: l else m :: insertIndex n l

/-- Put a segment at its place in index order. -/
def insertSegment (x : Segment) : List Segment → List Segment
  | [] => [x]
  | y :: l => if x.index < y.index then x :: y :: l else y :: insertSegment x l

/-- The segments of a group, in index order. -/
def segmentsOf (s : State) (g : Group) : List Segment :=
  ((s.txs.slots.filterMap id).filter g.owns).foldr insertSegment []

/-- Free the slots that hold a segment of the group. -/
def freeSlotsOf (g : Group) (s : State) : State :=
  s.modTxs (fun t => { t with slots := t.slots.map (fun x =>
    match x with
    | some y => if g.owns y then none else some y
    | none => none) })

/-! ## Answers (R150, R151) -/

def replyItemOf (u : Sub) (g : RawSegment) : TextAnswer → ReplyItem
  | .ack => .textAck u g.reference g.index
  | .refuse c => .refuseSegment u c g.reference g.index

def uplinkOf (g : RawSegment) : TextAnswer → UplinkFrame
  | .ack => .textAck g.reference g.index
  | .refuse c => .textRefuse c g.reference g.index

def countLost (x : State × Bool) : State :=
  if x.2 then x.1 else x.1.cntTxs (fun c => { c with answersLost := satInc c.answersLost })

/-- Offer an answer by the path of its segment; one that finds no room is counted lost (R151). -/
def offerAnswer (p : TextPath) (u : Sub) (g : RawSegment) (a : TextAnswer) (s : State) : State :=
  match p with
  | .idle fn => countLost (offerReplyItem u fn (replyItemOf u g a) s)
  | .connected => countLost (joinQueue u (uplinkOf g a) s)

/-! ## The store notice (R152, R153) -/

/-- A STORE_FULL refusal sets FULL_SIGNALLED; a change posts STORE_FULL (R152). -/
def signalFull (u : Sub) (s : State) : State :=
  if (s.sub u).notice = .fullSignalled then s
  else post .storeFull (some u) (freeCount s) (freeRecords s) (setNotice u .fullSignalled s)

/-- A FULL_SIGNALLED subscription becomes READY_DUE, and its STORE_READY is offered at once where it holds a link (R153,
R154). -/
def readyDue (u : Sub) (s : State) : State :=
  if (s.sub u).notice = .fullSignalled then offerStoreReady u (setNotice u .readyDue s) else s

/-- The watermark test (R153). -/
def watermarkTest (s : State) : State :=
  if 4 ≤ freeCount s ∧ 1 ≤ freeRecords s then readyDue .B (readyDue .A s) else s

/-! ## Storing a segment (R149) -/

/-- A group becomes READY and joins the tail of the ready list. -/
def makeReady (i : Nat) (g : Group) (partialMark : Bool) (s : State) : State :=
  (setGroup i (some { g with state := .ready partialMark }) s).modTxs (fun t => { t with ready := t.ready ++ [i] })

/-- The segment takes the chosen slot. -/
def fillSlot (u : Sub) (g : RawSegment) (s : State) : State :=
  let x : Segment :=
    { sub := u, sender := g.sender, reference := g.reference, index := g.index, total := g.total, service := g.service,
      arrival := s.ftb.fn, payload := g.payload }
  let i := chosenSlot s
  (s.modTxs (fun t => { t with slots := t.slots.set i (some x), picks := t.picks + 1 })).cntTxs
    (fun c => { c with stored := satInc c.stored })

/-- A group with all its indices becomes READY complete, and TEXT_READY is posted. -/
def completeIfWhole (i : Nat) (g : Group) (s : State) : State :=
  if g.received.length = g.total then
    post .textReady (some g.sub) g.reference 0
      ((makeReady i g false s).cntTxs (fun c => { c with completed := satInc c.completed }))
  else s

/-- The segment joins the group of record `i`, or opens one there with the reassembly expiry of PARAM (R149). -/
def joinGroup (i : Nat) (u : Sub) (g : RawSegment) (held : Option Group) (s : State) : State :=
  match held with
  | some h =>
    let h := { h with received := insertIndex g.index h.received }
    completeIfWhole i h (setGroup i (some h) s)
  | none =>
    let s := checkParam u s
    let h : Group :=
      { sub := u, sender := g.sender, reference := g.reference, total := g.total, received := [g.index],
        state := .opened (effParam s u).reassembly }
    completeIfWhole i h (setGroup i (some h) s)

/-! ## Examination (R148) -/

/-- A refusal for lack of room (R148, R152). The state is set, and a waiting STORE_READY withdrawn with it, before the refusal is
offered: it makes room in a full REPLY (log entry 50). -/
def refuseFull (p : TextPath) (u : Sub) (g : RawSegment) (s : State) : State :=
  offerAnswer p u g (.refuse 1) (signalFull u (s.cntTxs (fun c => { c with storeFull := satInc c.storeFull })))

/-- The cases of R148 after screening, in order. -/
def examinePermitted (p : TextPath) (u : Sub) (g : RawSegment) (s : State) : State :=
  match findGroup s u g.sender g.reference with
  | some (i, h) =>
    if h.total ≠ g.total then s.cntTxs (fun c => { c with mismatches := satInc c.mismatches })
    else if h.received.contains g.index then
      offerAnswer p u g .ack (s.cntTxs (fun c => { c with duplicates := satInc c.duplicates }))
    else match h.state with
      | .ready _ => s.cntTxs (fun c => { c with late := satInc c.late })
      | .opened _ =>
        if freeCount s = 0 then refuseFull p u g s
        else offerAnswer p u g .ack (joinGroup i u g (some h) (fillSlot u g s))
  | none =>
    match freeRecord s with
    | none => refuseFull p u g s
    | some i =>
      if freeCount s = 0 then refuseFull p u g s
      else offerAnswer p u g .ack (joinGroup i u g none (fillSlot u g s))

/-- A segment that is taken for `u`: its form, then the cases of R148 (R147, R148). -/
def takeSegment (p : TextPath) (u : Sub) (g : RawSegment) (s : State) : State :=
  if segmentShaped g then
    match screeningCheck u g.service 1 s with
    | (s, false) => offerAnswer p u g (.refuse 0) (s.cntTxs (fun c => { c with screened := satInc c.screened }))
    | (s, true) => examinePermitted p u g s
  else s.cntTxs (fun c => { c with malformed := satInc c.malformed })

/-! ## Expiry (R155, R156) -/

/-- An OPEN group is released as partial (R156). -/
def expireGroup (i : Nat) (g : Group) (s : State) : State :=
  post .textReady (some g.sub) g.reference (g.total - g.received.length : Nat)
    ((makeReady i g true s).cntTxs (fun c => { c with expired := satInc c.expired }))

/-- One group at a frame start whose FN is a multiple of 128 (R155). -/
def expiryStepOne (s : State) (i : Nat) : State :=
  match groupAt s i with
  | some g =>
    match g.state with
    | .opened c => if c ≤ 1 then expireGroup i g s else setGroup i (some { g with state := .opened (c - 1) }) s
    | .ready _ => s
  | none => s

/-- The expiry countdowns at a frame start (R155). -/
def expiryStep (s : State) : State :=
  if s.ftb.fn % 128 = 0 then (List.range 12).foldl expiryStepOne s else s

/-! ## Taking and discarding (R157, R159) -/

/-- A group as TEXT_TAKE returns it. -/
def transferOf (s : State) (g : Group) : TextTransfer :=
  { sub := g.sub, sender := g.sender, reference := g.reference, total := g.total,
    partialMark := g.state == .ready true, segments := segmentsOf s g }

/-- The group of record `i` is removed with its slots. -/
def removeGroup (i : Nat) (g : Group) (s : State) : State := setGroup i none (freeSlotsOf g s)

def isOpen (g : Group) : Bool :=
  match g.state with
  | .opened _ => true
  | .ready _ => false

/-- Discard one OPEN group for which `p` holds, counting it. -/
def discardOne (p : Group → Bool) (s : State) (i : Nat) : State :=
  match groupAt s i with
  | some g =>
    if isOpen g && p g then
      (removeGroup i g s).cntTxs (fun c => { c with groupsDiscarded := satInc c.groupsDiscarded })
    else s
  | none => s

/-- The open groups for which `p` holds are discarded (R159). -/
def discardOpen (p : Group → Bool) (s : State) : State := (List.range 12).foldl (discardOne p) s

end Sys2Proof.Machine
end

