-- ==== Sys2Proof/Machine/Contexts.lean ====
section
/-! DEFINITION. Changes of subscription state (chapter 1): standing claims (R36), link-end effects (R14), entry to CONNECTING
(R11) and CONNECTED (R13), loss of service (R15) and detach (R17). -/

namespace Sys2Proof.Machine

/-! ## Standing claims (R36) -/

/-- Set or clear the CONNECTED standing claim; the wake instant is computed again (R22). -/
def setConnected (u : Sub) (b : Bool) (s : State) : State :=
  refreshWake (s.modRta (fun r => { r with connected := r.connected.set u b }))

/-- Set or clear HANDOVER_EXEC; the wake instant is computed again (R22). -/
def setHoExec (o : Option Sub) (s : State) : State := refreshWake (s.modRta (fun r => { r with hoExec := o }))

def setState (u : Sub) (st : SubState) (s : State) : State := s.modSub u (fun r => { r with state := st })

/-- The serving timing value (R113). -/
def setTiming (u : Sub) (t : Option Nat) (s : State) : State :=
  s.modHxu (fun h => { h with timing := h.timing.set u t })

/-- The watch of a subscription that leaves CAMPED is removed, a put-off renewal with it (R96). -/
def dropWatch (u : Sub) (s : State) : State :=
  removeClaims (ownKind u .pageWatch) (s.modRec u (fun r => { r with watchDue := false }))

/-- A CAMPED subscription that leaves CAMPED while reselecting abandons the reselection (R8). -/
def abandonReselection (u : Sub) (s : State) : State :=
  if (s.sub u).reselecting then
    removeClaims (ownKind u .reacquire) (s.modSub u (fun r => { r with reselecting := false, candidate := none }))
  else s

/-! ## Links (R11 to R14) -/

/-- Link-end effects 1 to 5 (R14); the serving timing value goes with the link (R128). -/
def linkEnd (u : Sub) (s : State) : State :=
  let s := setConnected u false s
  let s := idleBearers u s
  let s := flushQueue u s
  let s := openLoopOf u true s
  setTiming u none (s.modSub u (fun r => { r with guard := none }))

/-- Entry to CAMPED from a link: triggers zeroed (R90), a watch inserted (R14, R96). -/
def campFromLink (u : Sub) (s : State) : State := insertWatch u (zeroTriggers u (setState u .camped (linkEnd u s)))

/-- Entry to CONNECTING (R11), at which a subscription enters the link states and offers a STORE_READY that is due (R154; a change
from one link state to another makes no offer of its own, log entry 56). -/
def enterConnecting (u : Sub) (s : State) : State :=
  let s := dropWatch u (abandonReselection u (setState u .connecting s))
  let s := checkParam u s
  let s := s.modSub u (fun r => { r with guard := some (effParam s u).connectGuard })
  offerStoreReady u (zeroTriggers u (setConnected u true s))

/-- A LINK_REQUEST for `u` handed to the SCS (R11). One answered with BUSY_OTHER is not forwarded and not counted as an uplink
discard (log entry 63). -/
def linkRequest (u : Sub) (body : Octets) (s : State) : State :=
  let f := UplinkFrame.control 0 body
  match (s.sub u).state with
  | .connecting => (joinQueue u f s).1
  | .connected => (joinQueue u f s).1
  | .handover => (joinQueue u f s).1
  | .detached => upDiscard s
  | .search => if holdsLink s u.other then post .busyOther (some u) u.other.code 0 s else upDiscard s
  | .camped =>
    if holdsLink s u.other then post .busyOther (some u) u.other.code 0 s
    else match joinQueue u f s with
      | (s, true) => enterConnecting u s
      | (s, false) => s

/-- A LINK_GRANT for `u` (R13): CONNECTING becomes CONNECTED, and the gap chain starts (R51). -/
def linkGrant (u : Sub) (s : State) : State :=
  if (s.sub u).state = .connecting then
    startGap u (s.modSub u (fun r => { r with state := .connected, guard := none }))
  else s

/-- The connect guard reaches 0 (R12). -/
def connectTimeout (u : Sub) (s : State) : State := post .connectTimeout (some u) 0 0 (campFromLink u s)

/-- One step of the connect guard countdown (R12). -/
def guardStep (u : Sub) (s : State) : State :=
  match (s.sub u).state, (s.sub u).guard with
  | .connecting, some n =>
    if n ≤ 1 then connectTimeout u s else s.modSub u (fun r => { r with guard := some (n - 1) })
  | _, _ => s

/-! ## Loss of service (R15) -/

/-- The claims removed on entry to SEARCH (R40). -/
def searchEntryKind : ClaimKind → Bool
  | .pageWatch => true
  | .delivery => true
  | .reply => true
  | .measGap => true
  | _ => false

/-- Entry to SEARCH: claims removed, SERVING released, serving fields absent, weak clear, announced area absent, search
started (R15, R40, R105). -/
def enterSearch (u : Sub) (s : State) : State :=
  let s := setState u .search s
  let s := removeClaims (fun c => c.owner == .sub u && searchEntryKind c.kind) s
  let s := releaseServing u s
  let s := s.modSub u (fun r => { r with serving := none, weak := false })
  let s := s.modRec u (fun r => { r with announced := none, watchDue := false, gapDue := false })
  startSearch u s

/-- Loss of service signalled for `u` (R15). -/
def lossOfService (u : Sub) (s : State) : State :=
  let key := match (s.sub u).serving with
    | some v => v.key
    | none => ⟨0, 0⟩
  let lost := fun s : State => post .serviceLost (some u) key.channel key.code s
  match (s.sub u).state with
  | .camped => enterSearch u (lost (abandonReselection u s))
  | .connecting => enterSearch u (lost (linkEnd u s))
  | .connected => enterSearch u (lost (linkEnd u s))
  | _ => s

/-! ## Detach (R17) -/

/-- The bearers of a detached subscription become IDLE; where that ends the playout, the occupancy statistic is emptied too
(R131, R172; log entry 31). -/
def endVoice (u : Sub) (s : State) : State :=
  let t := idleBearers u s
  if s.vpb.play.isSome && t.vpb.play.isNone then restartOcc t else t

/-- The tear-down of a subscription that is not in HANDOVER (R17, R56, R75, R112, R128, R144, R159, R172). -/
def detach (u : Sub) (s : State) : State :=
  let s := setState u .detached s
  let s := removeClaims (fun c => c.owner == .sub u) s
  let s := setConnected u false s
  let s := detachCells u s
  let s := flushQueue u (endVoice u s)
  let s := openLoopOf u false s
  let s := setNotice u .storeOk s
  let s := s.modSub u (fun r => { r with
    serving := none, candidate := none, weak := false, reselecting := false, guard := none, missed := 0 })
  let s := leaveSearch u s
  let s := setTiming u none (s.modRec u (fun _ => {}))
  let opens := s.txs.groups.any (fun g => match g with
    | some g => isOpen g && g.sub == u
    | none => false)
  let s := discardOpen (fun g => g.sub == u) s
  if opens then watermarkTest s else s

end Sys2Proof.Machine
end

