-- ==== Sys2Proof/Machine/Handover.lean ====
section
/-! DEFINITION. The Handover Execution Unit's operations: orders and acceptance (R115, R116), commit (R121), restore (R122),
abandonment (R123), the guard (R119) and SYNC_STATUS (R114, R120). -/

namespace Sys2Proof.Machine

/-- The guard as taken: 5 below 5, 100 above 100 (R115). -/
def clampGuard (g : Nat) : Nat := max 5 (min 100 g)

/-- The cause for which an order is ignored, in the order of R115's table; none: the order is accepted. -/
def orderCause (s : State) (u : Option Sub) (target : Key) : Option Nat :=
  match u with
  | none => some 2
  | some u =>
    if keyInRange target = false then some 2
    else if s.hxu.run.isSome then some 1
    else if (s.sub u).state ≠ .connected then some 0
    else if (s.sub u).serving.map (fun v => v.key) = some target then some 3
    else none

/-- The trigger list at acceptance (R113): valid entries owned by `u` with a trigger count other than 0, in entry order. -/
def triggerList (s : State) (u : Sub) : List TrigRec :=
  allEntries.filterMap (fun i =>
    let c := cellAt s i
    if c.valid && (c.part.get u).owned && (c.part.get u).trigger != 0 then
      some { entry := i, key := c.key, count := (c.part.get u).trigger }
    else none)

/-- Acceptance of an order (R116). -/
def acceptOrder (u : Sub) (target : Key) (guard : Nat) (s : State) : State :=
  let (s, e) := lookupOrAllocate target s
  let s := match e with
    | some i => modCell i (fun c => { c with hoTarget := true }) s
    | none => s
  let s := setFrozen true s
  let source := match (s.sub u).serving with
    | some v => v.key
    | none => target
  let r : HoRun :=
    { sub := u, source := source, timing := s.hxu.timing.get u, loop := s.vpb.radioLoop.isSome,
      triggers := triggerList s u, target := target, guard := clampGuard guard }
  let s := (s.modHxu (fun h => { h with run := some r })).cntHxu (fun c => { c with accepted := satInc c.accepted })
  holdBearers u (setHoExec (some u) (setState u .handover s))

/-- An order is ignored with a cause (R115): HO_IGNORED, then the frame is forwarded (R135). -/
def ignoreOrder (u : Option Sub) (target : Key) (guard cause : Nat) (s : State) : State :=
  let s := if cause = 2 then post .hoIgnored none 2 0 s else post .hoIgnored u cause target.channel s
  forward (.control u (.handoverOrder target guard)) (s.cntHxu (fun c => { c with ignored := satInc c.ignored }))

/-- A downlink HANDOVER_ORDER (R115). -/
def takeOrder (u : Option Sub) (target : Key) (guard : Nat) (s : State) : State :=
  match orderCause s u target, u with
  | some cause, u => ignoreOrder u target guard cause s
  | none, some u => acceptOrder u target guard s
  | none, none => s

/-! ## The end of a handover -/

/-- HO_TARGET released and the table unfrozen (R121, R122, R123). -/
def releasePins (s : State) : State := setFrozen false (releaseTarget s)

/-- The fallback frame and the execution record emptied, the target summary and a waiting notice dropped. -/
def clearRun (s : State) : State :=
  (s.modHxu (fun h => { h with run := none, notice := false })).modPgm (fun p => { p with target := none })

/-- Write one trigger count back where the entry is valid, holds the key and is owned by `u` (R122). -/
def writeTrigger (u : Sub) (s : State) (t : TrigRec) : State :=
  let s := useCell t.entry s
  let c := cellAt s t.entry
  if c.valid && c.key == t.key && (c.part.get u).owned then
    modCell t.entry (fun c => c.modPart u (fun p => { p with trigger := t.count })) s
  else s

/-- The record at place `k` of the running trigger list. -/
def triggerRecord (s : State) (k : Nat) : Option TrigRec := s.hxu.run.bind (fun r => r.triggers[k]?)

/-- The trigger list is written back (R122, R123). Each record is taken as the fallback frame then holds it: a check made on the
way, or by the look-up of a commit, may have marked PARAM damaged and set the recorded counts to 0 (R117). -/
def writeTriggers (r : HoRun) (s : State) : State :=
  (List.range r.triggers.length).foldl (fun s k =>
    match triggerRecord s k with
    | some t => writeTrigger r.sub s t
    | none => s) s

/-- The RADIO_LOOP state of the fallback frame is applied (R122, R168). -/
def applyLoop (r : HoRun) (s : State) : State := if r.loop then closeRadioLoop r.sub s else openRadioLoop true s

/-- Steps that commit and restore share: HANDOVER_EXEC cleared, CONNECTED, the gap chain, the bearers (R121, R122). The state is
set before the gap is inserted, which the rules list first: R51 inserts it on entry to CONNECTED (log entry 49). -/
def backToConnected (u : Sub) (s : State) : State :=
  resumeBearers u (startGap u (setState u .connected (setHoExec none s)))

/-- The restore of a handover (R122). -/
def restore (r : HoRun) (cause : Nat) (s : State) : State :=
  let s := writeTriggers r (releasePins s)
  let s := checkParam r.sub s
  let s := givePenalty r.sub r.target (effParam s r.sub).penalty s
  let s := placeHead r.sub (.handoverFail r.target cause r.timing) (applyLoop r s)
  let s := backToConnected r.sub (clearRun s)
  (post .hoFailed (some r.sub) cause r.target.channel s).cntHxu (fun c => { c with restores := satInc c.restores })

/-- The serving record after a commit (R121): the target key, and the target summary's values where it is held. -/
def commitRecord (r : HoRun) (s : State) : State :=
  match s.pgm.target with
  | some t => setServing r.sub r.target t.area t.tCell t.g s
  | none => s.modSub r.sub (fun x => { x with serving := x.serving.map (fun v => { v with key := r.target }) })

/-- The commit proper, the target entry being `i` (R121). -/
def commitOn (r : HoRun) (i timing : Nat) (s : State) : State :=
  let s := checkParam r.sub s
  let s := releasePins (pinServing r.sub i (effParam s r.sub).staleLimit s)
  let s := backToConnected r.sub (clearRun (commitRecord r s))
  let s := zeroTriggers r.sub (placeHead r.sub (.handoverDone r.target timing) s)
  let s := setTiming r.sub (some timing) s
  (post .hoDone (some r.sub) r.target.channel r.target.code s).cntHxu (fun c => { c with commits := satInc c.commits })

/-- A deciding SYNC_STATUS OK (R121): the commit, or a restore with cause 2 where the look-up misses or finds the target
uncorrectable (R124). The look-up does not touch (log entry 47). -/
def commit (r : HoRun) (timing : Nat) (s : State) : State :=
  match lookup r.target false (s.modHxu (fun h => { h with notice := false })) with
  | (s, none) => restore r 2 s
  | (s, some i) => if s.hxu.notice then restore r 2 s else commitOn r i timing s

/-- Abandonment by LINK_RELEASE (R123). -/
def abandon (r : HoRun) (s : State) : State :=
  let s := clearRun (writeTriggers r (releasePins s))
  (campFromLink r.sub (setHoExec none s)).cntHxu (fun c => { c with abandonments := satInc c.abandonments })

/-- One step of the handover guard (R119). -/
def hoGuardStep (s : State) : State :=
  match s.hxu.run with
  | none => s
  | some r =>
    if r.guard ≤ 1 then restore r 1 s
    else s.modHxu (fun h => { h with run := some { r with guard := r.guard - 1 } })

/-- The HXU takes the Cell Table's notice (R124): a restore with cause 2, or nothing when no handover runs. -/
def takeNotice (s : State) : State :=
  let s := s.modHxu (fun h => { h with notice := false })
  match s.hxu.run with
  | some r => restore r 2 s
  | none => s

/-! ## SYNC_STATUS (R114, R120) -/

def countUnused (s : State) : State := s.cntHxu (fun c => { c with syncsUnused := satInc c.syncsUnused })

/-- A well-formed SYNC_STATUS (R114). -/
def takeSync (u : Sub) (key : Key) (status : SyncResult) (timing : Nat) (s : State) : State :=
  match (s.sub u).state, s.hxu.run with
  | .handover, some r =>
    if key = r.target then
      match status with
      | .ok => commit r timing s
      | .fail => restore r 0 s
    else countUnused s
  | .connecting, _ =>
    if (s.sub u).serving.map (fun v => v.key) = some key ∧ status = .ok then setTiming u (some timing) s else countUnused s
  | .connected, _ =>
    if (s.sub u).serving.map (fun v => v.key) = some key ∧ status = .ok then setTiming u (some timing) s else countUnused s
  | _, _ => countUnused s

/-- A LINK_RELEASE for `u` handed to the SCS (R13). -/
def linkRelease (u : Sub) (s : State) : State :=
  match (s.sub u).state, s.hxu.run with
  | .connecting, _ => campFromLink u s
  | .connected, _ => campFromLink u s
  | .handover, some r => abandon r s
  | _, _ => s

end Sys2Proof.Machine
end

