-- ==== Sys2Proof/Machine/Measure.lean ====
section
/-! DEFINITION. The Measurement Filter Unit's operations: the report's cells (R76, R79, R80), the staleness sweep (R67), the weak
flag (R82), the triggers (R83 to R86), the MEAS_RESULT (R87, R88) and the penalty step (R89). -/

namespace Sys2Proof.Machine

/-! ## The report's cells (R76 to R80) -/

/-- The taking of the cells: the first 24, in range and without repeats (R76). Answers the cells and the numbers of malformed
and duplicate ones; a repeated key out of range is counted as malformed only (log entry 52). -/
def reportCells : List RawCell → List RawCell × Nat × Nat
  | [] => ([], 0, 0)
  | c :: l =>
    match reportCells l with
    | (kept, bad, dup) =>
      if keyInRange c.key = false then (kept, bad + 1, dup)
      else
        let rest := kept.filter (fun d => d.key != c.key)
        (c :: rest, bad, dup + (kept.length - rest.length))

/-- The shift by the state of the reporting subscription (R80). -/
def shiftOf (s : State) (u : Sub) (p : Param) : Nat := if holdsLink s u then p.kConn else p.kIdle

/-- The entry of a reported cell: a hit, or an allocation where discovery is on; none when the cell is dropped (R79). -/
def reportEntry (k : Key) (discovery : Bool) (s : State) : State × Option Nat :=
  match lookup k true s with
  | (s, some i) => (s, some i)
  | (s, none) => if discovery then allocate k s else (s, none)

/-- One cell of the report: its entry is owned by `u` and takes the sample (R79, R80). `seen` holds the entries in the report
with their keys. -/
def reportCell (u : Sub) (p : Param) (x : State × List (Nat × Key)) (c : RawCell) : State × List (Nat × Key) :=
  let (s, seen) := x
  match reportEntry c.key p.discovery s with
  | (s, none) => (s.modMfu (fun m => { m with discoveryDrops := satInc m.discoveryDrops }), seen)
  | (s, some i) =>
    let k := shiftOf s u p
    (modCell i (fun e =>
      { e with level := filterLevel e.samples e.level (measuredLevel c.level) k, samples := filterSamples e.samples }.modPart u
        (fun q => { q with owned := true })) s, seen ++ [(i, c.key)])

/-- Entry `i` is in the report: it still holds a cell that the report looked up or allocated there (R79). -/
def inReport (s : State) (seen : List (Nat × Key)) (i : Nat) : Bool :=
  (cellAt s i).valid && seen.any (fun x => x.1 == i && x.2 == (cellAt s i).key)

/-! ## The staleness sweep (R67, R68) -/

/-- One entry in the sweep of `u`; the flag says that loss of service is signalled. -/
def sweepOne (u : Sub) (limit : Nat) (seen : List (Nat × Key)) (x : State × Bool) (i : Nat) : State × Bool :=
  let (s, lost) := x
  let s := useCell i s
  let c := cellAt s i
  if !c.valid || !(c.part.get u).owned then (s, lost)
  else if inReport s seen i then (modCell i (fun c => c.modPart u (fun p => { p with stale := limit })) s, lost)
  else
    let n := (c.part.get u).stale - 1
    if c.serving.get u then (modCell i (fun c => c.modPart u (fun p => { p with stale := n })) s, lost || n == 0)
    else if n = 0 then (releaseTest i (modCell i (fun c => c.disown u) s), lost)
    else (modCell i (fun c => c.modPart u (fun p => { p with stale := n })) s, lost)

/-- The staleness sweep of `u` over every valid entry (R67). -/
def sweep (u : Sub) (limit : Nat) (seen : List (Nat × Key)) (s : State) : State × Bool :=
  allEntries.foldl (sweepOne u limit seen) (s, false)

/-! ## The weak flag (R82) -/

/-- The weak flag of `u` after the sweep (R82); set while CAMPED it starts a chain of gaps (R51). -/
def weakStep (u : Sub) (p : Param) (s : State) : State :=
  if isServed s u then
    match servingEntry s u with
    | none => s
    | some i =>
      let c := cellAt s i
      if c.samples = 0 then s
      else
        let before := (s.sub u).weak
        let after := weakAfter p c.level before
        let s := s.modSub u (fun r => { r with weak := after })
        if after && !before && (s.sub u).state == .camped then startWeakGap u s else s
  else s

/-! ## Triggers (R83 to R86) -/

/-- The neighbours of `u`: valid owned entries other than the serving one, in entry order; each is read and checked (R83). -/
def neighbours (u : Sub) (s : State) : List Nat :=
  allEntries.filter (fun i =>
    let c := cellAt s i
    c.valid && (c.part.get u).owned && !c.serving.get u)

def stepUp (n : Nat) : Nat := min (n + 1) 15

/-- Evaluate one entry: `holds` is the condition on a neighbour in the report. A reported neighbour whose condition holds keeps
its count (R86); in idle the reported mark is not used (R84). -/
def triggerOne (u : Sub) (connected : Bool) (holds : Cell → Bool) (seen : List (Nat × Key)) (s : State) (i : Nat) : State :=
  let s := useCell i s
  let c := cellAt s i
  if c.valid && (c.part.get u).owned && !c.serving.get u then
    let q := c.part.get u
    if !inReport s seen i then modCell i (fun c => c.untrigger u) s
    else if holds c then
      if connected && q.reported then s
      else modCell i (fun c => c.modPart u (fun q => { q with trigger := stepUp q.trigger })) s
    else if connected then modCell i (fun c => c.untrigger u) s
    else modCell i (fun c => c.modPart u (fun q => { q with trigger := 0 })) s
  else s

/-- The best of a list of entries by rank, the first among equals. -/
def bestByRank (s : State) : List Nat → Option Nat
  | [] => none
  | i :: l =>
    match bestByRank s l with
    | none => some i
    | some j => if rank (cellAt s i) < rank (cellAt s j) then some j else some i

/-- The idle condition of R84 on a neighbour, with idle serving rank `base`. -/
def idleHolds (u : Sub) (base : Int) (c : Cell) : Bool :=
  !c.barred && (c.part.get u).penalty == 0 && decide (base < rank c)

/-- The connected condition of R86 on a neighbour, with connected threshold `base`. -/
def connHolds (u : Sub) (base : Int) (c : Cell) : Bool := (c.part.get u).penalty == 0 && decide (base < rank c)

/-- The idle trigger and its offer (R84, R85). -/
def idleTrigger (u : Sub) (p : Param) (serving : Nat) (seen : List (Nat × Key)) (s : State) : State :=
  let base := rank (cellAt s serving) + 4 * (p.hysteresis : Int)
  let s := allEntries.foldl (triggerOne u false (idleHolds u base) seen) s
  let ripe := (neighbours u s).filter (fun i => inReport s seen i && decide (p.reselCount ≤ ((cellAt s i).part.get u).trigger))
  match bestByRank s ripe with
  | none => s
  | some i => takeOffer u (cellAt s i).key (s.modMfu (fun m => { m with offers := satInc m.offers }))

/-- Order neighbours by rank, highest first, equal ranks by entry number (R87). -/
def insertByRank (s : State) (i : Nat) : List Nat → List Nat
  | [] => [i]
  | j :: l => if rank (cellAt s j) ≤ rank (cellAt s i) then i :: j :: l else j :: insertByRank s i l

def byRank (s : State) (l : List Nat) : List Nat := l.foldr (insertByRank s) []

/-- Neighbour `i` is triggering in this report (R86). -/
def triggering (u : Sub) (p : Param) (base : Int) (s : State) (i : Nat) : Bool :=
  let c := cellAt s i
  connHolds u base c && !(c.part.get u).reported && decide (p.timeToTrigger ≤ (c.part.get u).trigger)

/-- Set the reported marks of the triggered neighbours of a placed result (R88). -/
def markReported (u : Sub) (l : List Nat) (s : State) : State :=
  l.foldl (fun s i => modCell i (fun c => c.modPart u (fun q => { q with reported := true })) s) s

/-- The connected trigger and its MEAS_RESULT (R86 to R88). -/
def connTrigger (u : Sub) (p : Param) (serving : Nat) (seen : List (Nat × Key)) (s : State) : State :=
  let base := rank (cellAt s serving) + 4 * (p.hoMargin : Int)
  let s := allEntries.foldl (triggerOne u true (connHolds u base) seen) s
  let present := (neighbours u s).filter (inReport s seen)
  if present.any (triggering u p base s) then
    let chosen := (byRank s (present.filter (fun i => ((cellAt s i).part.get u).penalty == 0))).take 6
    let key := match (s.sub u).serving with
      | some v => v.key
      | none => (cellAt s serving).key
    let f := UplinkFrame.measResult s.ftb.fn key (halfDb (cellAt s serving).level)
      (chosen.map (fun i =>
        { key := (cellAt s i).key, level := halfDb (cellAt s i).level, triggered := triggering u p base s i }))
    let marks := chosen.filter (triggering u p base s)
    match joinQueue u f (s.modMfu (fun m => { m with resultsBuilt := satInc m.resultsBuilt })) with
    | (s, true) => markReported u marks s
    | (s, false) => s.modMfu (fun m => { m with resultsLost := satInc m.resultsLost })
  else s

/-- The trigger that applies to the state of `u`, unless its serving entry is unmeasured (R83). -/
def triggerStep (u : Sub) (p : Param) (seen : List (Nat × Key)) (s : State) : State :=
  match servingEntry s u with
  | none => s
  | some i =>
    match (s.sub u).state with
    | .camped =>
      let s := useCell i s
      if (cellAt s i).samples = 0 then s else idleTrigger u p i seen s
    | .connected =>
      let s := useCell i s
      if (cellAt s i).samples = 0 then s else connTrigger u p i seen s
    | _ => s

/-! ## The penalty step (R89) -/

/-- Every non-zero penalty count of `u` decreases by one. -/
def penaltyStep (u : Sub) (s : State) : State :=
  allEntries.foldl (fun s i =>
    if (cellAt s i).valid && ((cellAt s i).part.get u).penalty != 0 then
      let s := useCell i s
      if (cellAt s i).valid then
        modCell i (fun c => c.modPart u (fun p => { p with penalty := p.penalty - 1 })) s
      else s
    else s) s

/-! ## The report whole (R77) -/

/-- A MEAS_REPORT taken for `u` (R76, R77): cells, sweep, loss of service, weak flag, triggers, penalties. -/
def takeReport (u : Sub) (cells : List RawCell) (s : State) : State :=
  let s := checkParam u s
  let p := effParam s u
  match reportCells (cells.take 24) with
  | (kept, bad, dup) =>
    let s := s.modMfu (fun m => { m with
      taken := satInc m.taken, cellsIgnored := satAdd m.cellsIgnored (cells.length - 24),
      malformedCells := satAdd m.malformedCells bad, duplicateCells := satAdd m.duplicateCells dup })
    match kept.foldl (reportCell u p) (s, []) with
    | (s, seen) =>
      match sweep u p.staleLimit seen s with
      | (s, lost) =>
        let s := if lost then lossOfService u s else s
        penaltyStep u (triggerStep u p seen (weakStep u p s))

end Sys2Proof.Machine
end

