-- ==== Sys2Proof/Machine/Decision.lean ====
section
/-! DEFINITION. The frame start (R19): begun and spent acquisitions (R37, R50), the grant decision (R42, R43), what a lost and a
sent frame costs or gives (R44 to R48, R166), and the countdowns; then the events that make frame starts: sleep-counted
boundaries with the warm-up failure (R20, R26), FRAME_MARKs with adoption (R28 to R31, R52), READY (R25), the mark watchdog
(R32), and one sleep tick. -/

namespace Sys2Proof.Machine

/-! ## Candidates (R42) -/

/-- A candidate of a decision: owner, kind, priority, and the timed claim behind it (none: a standing claim). -/
structure Cand where
  owner : Owner
  kind : ClaimKind
  prio : Nat
  claim : Option Claim
deriving DecidableEq, Repr

def mkCand (s : State) (owner : Owner) (kind : ClaimKind) (claim : Option Claim) : Cand :=
  { owner := owner, kind := kind, prio := priority s owner kind, claim := claim }

/-- The standing candidates, HANDOVER_EXEC first, then CONNECTED of A and of B (R36). -/
def standingCands (s : State) : List Cand :=
  (match s.rta.hoExec with
    | some u => [mkCand s (.sub u) .handoverExec none]
    | none => []) ++
  (if s.rta.connected.a then [mkCand s (.sub .A) .connected none] else []) ++
  (if s.rta.connected.b then [mkCand s (.sub .B) .connected none] else [])

/-- A timed claim is a candidate in the current frame: it covers the frame, and a REPLY holds items (R42). -/
def isCandidate (fn : Nat) (c : Claim) : Bool := covers fn c && !(c.kind == .reply && c.items.isEmpty)

/-- The candidates: the standing claims, which count as earlier than any timed one, then the timed claims in list order. -/
def candidates (s : State) : List Cand :=
  standingCands s ++
    (s.rta.claims.filter (isCandidate s.ftb.fn)).map (fun c => mkCand s c.owner c.kind (some c))

/-- Step 1 of R42: the candidates of highest priority. -/
def topPriority (l : List Cand) : List Cand :=
  let top := l.foldl (fun m c => max m c.prio) 0
  l.filter (fun c => c.prio == top)

/-- Step 2 of R42: among tied claims those whose owner differs from the last-granted owner, where there are any. -/
def alternate (last : Option Owner) (l : List Cand) : List Cand :=
  let l' := l.filter (fun c => some c.owner != last)
  if l'.isEmpty then l else l'

/-- The winner (R42): priority, alternation, then the place in the list; places are all different, so that kind and owner
order decide nothing more (log entry 11). -/
def winner (s : State) : Option Cand := (alternate s.rta.lastGranted (topPriority (candidates s))).head?

/-! ## The GRANT (R43, R48) -/

def servingKey (s : State) (u : Sub) : Option Key := (s.sub u).serving.map (fun v => v.key)

/-- The cell key of a GRANT (R43). -/
def grantKey (s : State) (w : Cand) : Option Key :=
  match w.kind, w.owner with
  | .handoverExec, _ => s.hxu.run.map (fun r => r.target)
  | .reacquire, .sub u => (s.sub u).candidate
  | .search, _ => none
  | _, .sub u => servingKey s u
  | _, .common => none

/-- The starvation limit that TUNE_AWAY will carry: a watch at priority 5 over the other subscription's CONNECTED claim (R48). -/
def tuneAwayOf (s : State) (w : Cand) : Option Nat :=
  match w.kind, w.owner with
  | .pageWatch, .sub u =>
    if w.prio = 5 ∧ s.rta.connected.get u.other = true then some (effParam s u).starvation else none
  | _, _ => none

def grantOf (s : State) (w : Cand) : Grant :=
  { fn := s.ftb.fn, owner := w.owner, purpose := w.kind, key := grantKey s w,
    serial := w.claim.map (fun c => c.serial), tuneAway := tuneAwayOf s w }

/-! ## Losing a frame (R46) -/

/-- `fn` is the claim's final frame; a REACQUIRE has none (R50). -/
def isFinal (fn : Nat) (c : Claim) : Bool := c.kind != .reacquire && fnDist c.start fn + 1 == c.length

def bySerial (n : Nat) (c : Claim) : Bool := c.serial == n

/-- A timed claim of the list is missed (R46): it leaves the list with its kind's effect, and is renewed at once. -/
def missClaim (c : Claim) (s : State) : State :=
  if s.rta.claims.any (bySerial c.serial) then
    renewClaim c (missedEffect c (removeClaims (bySerial c.serial) s))
  else s

/-- A candidate that is not the winner loses the frame (R46). -/
def loseFrame (s : State) (w : Cand) : State :=
  match w.claim with
  | none =>
    if w.kind = .connected then s.cntRta (fun c => { c with connectedLost := satInc c.connectedLost }) else s
  | some c =>
    if isFinal s.ftb.fn c then missClaim c s
    else if c.kind = .delivery then
      s.cntRta (fun n => { n with deliveryFramesLost := satInc n.deliveryFramesLost })
    else s

/-! ## A sent GRANT (R44, R141, R166) -/

/-- The bound voice frame goes with the GRANT of its owner's CONNECTED claim, unless the owner is in HANDOVER then: a frame
bound before an acceptance is discarded when its GRANT is sent, not at the acceptance (R166; log entry 51). -/
def sendVoice (u : Sub) (fn : Nat) (s : State) : State :=
  match s.vpb.bound with
  | none => s
  | some b =>
    let s := s.modVpb (fun v => { v with bound := none })
    if (s.sub u).state = .handover then countUpDiscarded s
    else (sendFl (.voice u fn b.bearer b.frame) s).cntVpb (fun c => { c with upSent := satInc c.upSent })

/-- A sent REPLY (R44, R103): the items leave in a REPLY frame; a STORE_READY among them makes the notice STORE_OK. A REPLY that a
withdrawal has left with no items, while a warm-up held its GRANT, leaves without a REPLY frame (R103; log entry 55). -/
def sendReply (u : Sub) (fn : Nat) (items : List ReplyItem) (s : State) : State :=
  let s := if items.isEmpty then s else sendFl (.reply u fn items (freeCount s) (freeRecords s)) s
  if items.contains (.storeReady u) then setNotice u .storeOk s else s

/-- TUNE_AWAY (R48). -/
def tuneAway (u : Sub) (limit : Nat) (s : State) : State :=
  (post .tuneAway (some u) limit u.other.code s).cntRta (fun c => { c with tuneAways := satInc c.tuneAways })

/-- The effect of a sent GRANT on the timed claim that it serves (R44). -/
def grantedClaim (g : Grant) (c : Claim) (s : State) : State :=
  let s := mapClaims (bySerial c.serial) (fun c => { c with granted := min (c.granted + 1) c.length }) s
  match c.kind, c.owner with
  | .pageWatch, .sub u =>
    let s := removeClaims (bySerial c.serial) (s.modSub u (fun r => { r with missed := 0 }))
    let s := match g.tuneAway with
      | some limit => tuneAway u limit s
      | none => s
    renewWatch u (watchGranted u g.fn s)
  | .reply, .sub u => sendReply u g.fn c.items (removeClaims (bySerial c.serial) s)
  | .measGap, _ => renewClaim c (removeClaims (bySerial c.serial) s)
  | .delivery, _ => if isFinal g.fn c then removeClaims (bySerial c.serial) s else s
  | .search, _ => if isFinal g.fn c then renewClaim c (removeClaims (bySerial c.serial) s) else s
  | _, _ => s

/-- A GRANT is sent on the FL, with the effects of R44. One whose timed claim has left the list has none (log entry 17). Of a
CONNECTED claim's frame the queue's head goes before the bound voice frame (log entry 59). -/
def grantSent (g : Grant) (s : State) : State :=
  let s := sendFl (.grant g) s
  match g.serial with
  | none =>
    match g.purpose, g.owner with
    | .connected, .sub u => sendVoice u g.fn (drainQueue u g.fn s)
    | _, _ => s
  | some n =>
    match s.rta.claims.find? (bySerial n) with
    | some c => grantedClaim g c s
    | none => s

/-- A GRANT by the power state (R24). -/
def passGrant (g : Grant) (s : State) : State :=
  match s.ftb.power with
  | .on => grantSent g s
  | .warming => s.modFtb (fun f => { f with held := some g })
  | .off => (powerOn s).modFtb (fun f => { f with held := some g })

/-! ## The decision (R42, R166) -/

/-- The pending uplink frame is bound to the GRANT of the playout owner's CONNECTED claim, or discarded (R166). -/
def voiceDecision (w : Option Cand) (s : State) : State :=
  match s.vpb.pendingUp with
  | none => s
  | some f =>
    let bearer : Option Nat := match w, s.vpb.play with
      | some w, some p => if w.kind = .connected ∧ w.owner = .sub p.owner then some p.bearer else none
      | _, _ => none
    match bearer with
    | some i => s.modVpb (fun v => { v with pendingUp := none, bound := some { bearer := i, frame := f } })
    | none => countUpDiscarded (s.modVpb (fun v => { v with pendingUp := none }))

/-- The grant decision of the current frame: the winner is recorded, the others lose the frame, the GRANT is passed on. -/
def grantDecision (s : State) : State :=
  match winner s with
  | none => voiceDecision none s
  | some w =>
    let g := grantOf s w
    let losers := (candidates s).filter (fun c => c != w)
    let s := s.modRta (fun r => { r with lastGranted := some w.owner })
    passGrant g (voiceDecision (some w) (losers.foldl loseFrame s))

/-! ## Before the decision (R37, R42, R50) -/

/-- A REACQUIRE whose start is the current frame begins (R37). -/
def beginReacquires (s : State) : State :=
  mapClaims (fun c => c.kind == .reacquire && c.start == s.ftb.fn) (fun c => { c with begun := true }) s

/-- The order of the list is brought up to date (R37). -/
def resort (s : State) : State := s.modRta (fun r => { r with claims := sortClaims s.ftb.fn r.claims })

/-- The REACQUIRE of `u` has had its budget of 32 granted frames. -/
def budgetGone (u : Sub) (c : Claim) : Bool := ownKind u .reacquire c && decide (32 ≤ c.granted)

/-- A spent REACQUIRE of `u` is removed and reported (R50). -/
def spendBudget (u : Sub) (s : State) : State :=
  if s.rta.claims.any (budgetGone u) then
    startSearchIfDue u (acquisitionSpent u
      (s.modRta (fun r => { r with claims := r.claims.filter (fun c => !budgetGone u c) })))
  else s

/-- A REPLY that holds no items when its frame starts leaves the list (R42). -/
def dropEmptyReplies (s : State) : State :=
  syncWindow .B (syncWindow .A (s.modRta (fun r => { r with
    claims := r.claims.filter (fun c => !(c.kind == .reply && c.items.isEmpty && covers s.ftb.fn c)) })))

/-! ## After the decision -/

/-- Renewals that R39 put off at the frame start of `old`, made now. -/
def duePart (old : State) (u : Sub) (s : State) : State :=
  let s := if (old.pgm.recs.get u).watchDue && (s.pgm.recs.get u).watchDue then
      renewWatch u (s.modRec u (fun r => { r with watchDue := false })) else s
  let s := if (old.pgm.recs.get u).gapDue && (s.pgm.recs.get u).gapDue then
      renewGap u (s.modRec u (fun r => { r with gapDue := false })) else s
  if inSearch old u && (old.pgm.recs.get u).chain.isNone then startSearchIfDue u s else s

def dueRenewals (old s : State) : State :=
  let s := duePart old .B (duePart old .A s)
  if old.pgm.searchDue && s.pgm.searchDue then renewSearch s else s

/-- The offer of a STORE_READY at a frame start (R154): made where no STORE_READY of `u` was waiting when it began. One that the
frame start itself has missed is offered at the next. -/
def offerAtFrameStart (old : State) (u : Sub) (s : State) : State :=
  if storeReadyWaiting old u then s else offerStoreReady u s

/-- The frame start of the current FN (R19), in the order of log entry 5. -/
def frameStart (s : State) : State :=
  let old := s
  let s := checkParam .B (checkParam .A s)
  let s := spendBudget .B (spendBudget .A (resort (beginReacquires s)))
  let s := grantDecision (dropEmptyReplies s)
  let s := powerDownTest (dueRenewals old s)
  let s := expiryStep (offerAtFrameStart old .B (offerAtFrameStart old .A s))
  refreshWake (hoGuardStep (guardStep .B (guardStep .A s)))

/-! ## Sleep-counted boundaries (R20, R26) -/

/-- The claim granted in a failed frame is missed; a standing claim has lost the frame (R26, R45). -/
def failedGrant (g : Grant) (s : State) : State :=
  match g.serial with
  | none =>
    if g.purpose = .connected then s.cntRta (fun c => { c with connectedLost := satInc c.connectedLost }) else s
  | some n =>
    match s.rta.claims.find? (bySerial n) with
    | some c => missClaim c s
    | none => s

/-- A voice frame bound to a discarded GRANT is discarded (R166). -/
def dropBound (s : State) : State :=
  match s.vpb.bound with
  | some _ => countUpDiscarded (s.modVpb (fun v => { v with bound := none }))
  | none => s

def ownerSub : Owner → Option Sub
  | .sub u => some u
  | .common => none

/-- The frame that has ended is closed (R26): a GRANT still held is a failed warm-up. A frame whose GRANT was sent before the front
end was powered down and warmed again within it has not failed (log entry 57). The state becomes OFF at the end, so
that the wake instant is computed first at the frame start that follows. -/
def closeFrame (s : State) : State :=
  match s.ftb.power, s.ftb.held with
  | .warming, some g =>
    let s := post .feFault (ownerSub g.owner) g.fn 0 (sendFl (.power false) s)
    let s := failedGrant g (dropBound (s.modFtb (fun f => { f with held := none })))
    s.modFtb (fun f => { f with power := .off })
  | _, _ => s

/-- The frame start of FN + 1 with a drawn length (R20). -/
def nextSleepFrame (s : State) : State :=
  frameStart (drawCurrent (s.modFtb (fun f => { f with fn := fnAdd f.fn 1, elapsed := 0 })))

/-- A sleep-counted boundary: the ended frame is closed, the next one starts. -/
def boundary (s : State) : State := nextSleepFrame (closeFrame s)

/-! ## The mark watchdog (R32) -/

/-- The watchdog expires. A frame counted from its mark is followed by the frame start of FN + 1; before any mark counting
goes on undisturbed. -/
def watchdogExpiry (s : State) : State :=
  let s := powerOff (s.modFtb (fun f => { f with watchdog := none, comparePending := false }))
  let s := post .feFault none s.ftb.fn 1 s
  match s.ftb.counting with
  | .marks => nextSleepFrame s
  | .sleep _ => refreshWake s

/-! ## READY (R25) and FRAME_MARK (R28 to R31, R52) -/

def countStray (s : State) : State := s.cntFtb (fun c => { c with strays := satInc c.strays })

/-- READY (R25). -/
def takeReady (s : State) : State :=
  match s.ftb.power with
  | .warming =>
    let held := s.ftb.held
    let s := s.modFtb (fun f => { f with
      power := .on, held := none, comparePending := true, watchdog := some 656, wake := none })
    match held with
    | some g => grantSent g s
    | none => s
  | _ => countStray s

/-- The difference d of R29, in -512..511. -/
def markDiff (carried expected : Nat) : Int :=
  if fnDist expected carried ≤ 511 then (fnDist expected carried : Int) else (fnDist expected carried : Int) - 1024

/-- Frame `x` was jumped over between the old FN and the carried one. -/
def jumped (old carried x : Nat) : Bool := decide (1 ≤ fnDist old x) && decide (fnDist old x < fnDist old carried)

/-- How many frames of the claim were jumped over. -/
def framesJumped (old carried : Nat) (c : Claim) : Nat :=
  (List.range c.length).countP (fun k => jumped old carried (fnAdd c.start k))

/-- The jumped frames are lost to a claim that stays; those of a DELIVERY, none of them its final frame, are counted (R46, R52,
R55). -/
def loseJumped (old carried : Nat) (c : Claim) (s : State) : State :=
  if c.kind = .delivery then
    s.cntRta (fun n => { n with deliveryFramesLost := satAdd n.deliveryFramesLost (framesJumped old carried c) })
  else s

/-- One claim at a forward adoption (R52). A claim that the jump has missed is counted as such, and its jumped frames are not
counted beside it (log entry 45). -/
def jumpOne (old carried : Nat) (s : State) (c : Claim) : State :=
  if c.kind = .reacquire then
    if jumped old carried c.start then mapClaims (bySerial c.serial) (fun c => { c with begun := true }) s else s
  else if s.rta.claims.any (bySerial c.serial) then
    if jumped old carried (fnAdd c.start (c.length - 1)) then
      missClaim c (s.cntRta (fun n => { n with jumped := satInc n.jumped }))
    else loseJumped old carried c s
  else s

/-- The jumped frames of a forward adoption, FN being the carried value already (R52). -/
def jumpClaims (old carried : Nat) (s : State) : State := s.rta.claims.foldl (jumpOne old carried) s

/-- A frame start at a mark carrying `carried` (R30, R31); `first` says that it is the first after READY. -/
def markFrame (first : Bool) (expected carried : Nat) (s : State) : State :=
  let old := s.ftb.fn
  let d := markDiff carried expected
  let s := s.modFtb (fun f => { f with fn := carried })
  let s :=
    if d = 0 then s
    else
      let s :=
        if first then
          post .fnSlip none d expected (s.cntFtb (fun c => { c with slips := satInc c.slips }))
        else s.cntFtb (fun c => { c with discontinuities := satInc c.discontinuities })
      if 0 < d then jumpClaims old carried s else s
  frameStart s

/-- The expected FN at the first mark after READY, from the place of the mark in the current frame (R29). -/
def expectedFirst (f : Ftb) : Nat :=
  match f.counting with
  | .sleep len => if f.elapsed < len / 2 then f.fn else fnAdd f.fn 1
  | .marks => fnAdd f.fn 1

/-- A FRAME_MARK (R28). -/
def takeMark (carried : Nat) (s : State) : State :=
  match s.ftb.power with
  | .on =>
    let carried := carried % 1024
    let first := s.ftb.comparePending
    let expected := if first then expectedFirst s.ftb else fnAdd s.ftb.fn 1
    let now := s.ftb.fn
    let s := s.modFtb (fun f => { f with
      comparePending := false, watchdog := some 492, counting := .marks, elapsed := 0 })
    if carried = expected ∧ expected = now then s else markFrame first expected carried s
  | _ => countStray s

/-! ## The sleep tick (log entry 1) -/

/-- The mark watchdog after `k` ticks; it expires where they use it up (R32). -/
def runWatchdog (k : Nat) (s : State) : State :=
  match s.ftb.watchdog with
  | none => s
  | some n => if n ≤ k then watchdogExpiry s else s.modFtb (fun f => { f with watchdog := some (n - k) })

/-- The drawn length of a sleep-counted frame has elapsed. -/
def lengthElapsed (s : State) : Bool :=
  match s.ftb.counting with
  | .sleep len => decide (len ≤ s.ftb.elapsed)
  | .marks => false

/-- The wake instant where it lies in the current sleep-counted frame while OFF. At the boundary that ends the frame the next
frame start computes it again. -/
def wakeInFrame (s : State) : Option Nat :=
  match s.ftb.power, s.ftb.counting, s.ftb.wake with
  | .off, .sleep len, some w => if w < len then some w else none
  | _, _, _ => none

/-- The wake instant has been reached while OFF (R23). -/
def wakeReached (s : State) : Bool :=
  s.ftb.power == .off &&
    match s.ftb.wake with
    | some w => decide (w ≤ s.ftb.elapsed)
    | none => false

/-- One sleep tick passes: watchdog, boundary, wake instant. -/
def sleepTick (s : State) : State :=
  let s := runWatchdog 1 (s.modFtb (fun f => { f with elapsed := f.elapsed + 1 }))
  let s := if lengthElapsed s then boundary s else s
  if wakeReached s then powerOn s else s

/-- What happens while no command waits: the HXU takes a waiting notice, or one sleep tick passes (log entries 1, 24). -/
def idleStep (s : State) : State := if s.hxu.notice then takeNotice s else sleepTick s

/-- The rest of a sleep-counted frame passes: a wake instant in it sends POWER(ON), the watchdog runs on, then the boundary
(R20, R23, R32). -/
def frameElapses (len : Nat) (s : State) : State :=
  let k := len - s.ftb.elapsed
  let s := if (wakeInFrame s).isSome then powerOn s else s
  boundary (runWatchdog k (s.modFtb (fun f => { f with elapsed := max f.elapsed len })))

end Sys2Proof.Machine
end

