-- ==== Sys2Proof/Machine/Layouts.lean ====
section
/-! DEFINITION. The layouts of 11.6: the frame check, the frames that the device sends on the AL and the FL, the records and table
entries that they carry, and the bodies of PAGE and MEAS_REPORT. Entries whose layout 11.6 does not give have none here. -/

namespace Sys2Proof.Machine

/-! ## Numbers and digits -/

def oct (n : Nat) : Byte := BitVec.ofNat 8 n

/-- Two octets, most significant first. -/
def oct2 (n : Nat) : Octets := [oct (n / 256), oct n]

/-- A signed number in two octets, two's complement. -/
def int2 (x : Int) : Octets := oct2 (x % 65536).toNat

/-- A signed number in one octet. -/
def int1 (x : Int) : Octets := [oct (x % 256).toNat]

/-- A signed number in four octets. -/
def int4 (x : Int) : Octets :=
  let n := (x % 4294967296).toNat
  oct2 (n / 65536) ++ oct2 n

/-- Digits packed two per octet, the first in the high half; unused halves hold 15. `n` octets. -/
def packDigits : Nat → List Nat → Octets
  | 0, _ => []
  | n + 1, [] => oct 255 :: packDigits n []
  | n + 1, [d] => oct (d * 16 + 15) :: packDigits n []
  | n + 1, d :: e :: l => oct (d * 16 + e) :: packDigits n l

def flag (b : Bool) : Byte := if b then 1 else 0

/-- Subscription field: 0 A, 1 B, 2 none or COMMON. -/
def subCode : Option Sub → Nat
  | some u => u.code
  | none => 2

def keyOctets (k : Key) : Octets := oct2 k.channel ++ oct2 k.code

/-- A timing value, 65535 when absent. -/
def timingOctets : Option Nat → Octets
  | some t => oct2 t
  | none => oct2 65535

/-! ## Frame check -/

/-- One bit of the CRC with generator x^16 + x^12 + x^5 + 1, most significant bit first. -/
def crcShift (r : BitVec 16) : BitVec 16 := if r.msb then (r <<< 1) ^^^ 0x1021#16 else r <<< 1

/-- One octet of the CRC. -/
def crcOctet (r : BitVec 16) (b : Byte) : BitVec 16 :=
  Nat.repeat crcShift 8 (r ^^^ (b.setWidth 16 <<< 8))

/-- The 16-bit frame check over a list of octets, initial value all ones (11.6). -/
def frameCheck (l : Octets) : BitVec 16 := l.foldl crcOctet 0xffff#16

/-- A frame with its check behind it. -/
def withCheck (l : Octets) : Octets := l ++ oct2 (frameCheck l).toNat

/-- The last two octets are the frame check of those before them. -/
def checkHolds (l : Octets) : Bool :=
  decide (2 ≤ l.length) && l.drop (l.length - 2) == oct2 (frameCheck (l.take (l.length - 2))).toNat

/-! ## AL frames -/

/-- An AL frame: kind, subscription, bearer id or message code, sequence, body. -/
def alFrame (kind : Nat) (u : Option Sub) (id seq : Nat) (body : Octets) : Octets :=
  withCheck ([oct kind, oct (subCode u)] ++ oct2 body.length ++ [oct id, oct seq] ++ body)

def EventClass.octet : EventClass → Byte
  | .suppressed => 0
  | .routine => 1
  | .urgent => 2

/-- An event record, the body of an EVENT frame. -/
def eventBody (e : EventRec) : Octets :=
  [oct e.kind.code, EventClass.octet e.cls, oct (subCode e.sub)] ++ oct2 e.fn ++ int4 e.arg1 ++ int4 e.arg2

def Status.code : Status → Nat
  | .done => 0
  | .doneClamped => 1
  | .noSuchTable => 2
  | .outOfRange => 3
  | .frozen => 4
  | .wrongState => 5
  | .empty => 6
  | .malformed => 7

/-- The segment of a text group transfer. -/
def segmentOctets (x : Segment) : Octets :=
  [oct x.index, oct x.service] ++ oct2 x.arrival ++ [oct x.payload.length] ++ x.payload

/-- A text group transfer. -/
def textOctets (t : TextTransfer) : Octets :=
  [oct t.sub.code, oct t.sender.length] ++ packDigits 10 t.sender ++
    [oct t.reference, oct t.total, flag t.partialMark, oct t.segments.length] ++ (t.segments.map segmentOctets).flatten

/-- A per-subscription part of a CELL entry. -/
def partOctets (p : CellPart) : Octets := [flag p.owned, oct p.stale, oct p.trigger, flag p.reported, oct p.penalty]

/-- The pins, summed. -/
def pinOctet (c : Cell) : Byte :=
  (if c.serving.a then 1 else 0) + (if c.serving.b then 2 else 0) + (if c.hoTarget then 4 else 0)

/-- A CELL entry behind its status octet. -/
def cellOctets (c : Cell) : Octets :=
  [flag c.valid, flag c.listed, flag c.barred] ++ keyOctets c.key ++ int1 c.offset ++ int2 c.level ++
    [oct c.samples, pinOctet c] ++ partOctets c.part.a ++ partOctets c.part.b

def BearerClass.octet : BearerClass → Byte
  | .voice => 0
  | .text => 1
  | .signal => 2
  | .data => 3

def BearerState.octet : BearerState → Byte
  | .idle => 0
  | .active => 1
  | .held => 2

def bearerOctets (e : Bearer) : Octets := [oct e.owner.code, BearerClass.octet e.cls, BearerState.octet e.state]

/-- FALLBACK entry 0; the layout of absent fields is not given, and an empty frame has none here. -/
def fallbackOctets (v : FallbackView) : Option Octets :=
  v.run.map (fun r =>
    [1, flag v.frozen, oct r.sub.code] ++ keyOctets r.source ++ timingOctets r.timing ++ [flag r.loop] ++
      keyOctets r.target ++ [oct r.guard, oct v.records] ++ timingOctets v.timing.a ++ timingOctets v.timing.b)

def triggerOctets (t : TrigRec) : Octets := [oct t.entry] ++ keyOctets t.key ++ [oct t.count]

/-- An entry as TABLE_READ returns it: a status octet (0 valid, 1 damaged, 2 empty), then its fields; none for the tables whose
entry layout 11.6 does not give. -/
def entryOctets : ReadEntry → Option Octets
  | .damaged => some [1]
  | .empty => some [2]
  | .cell c => some (0 :: cellOctets c)
  | .bearer e => some (0 :: bearerOctets e)
  | .fallback v => (fallbackOctets v).map (fun l => 0 :: l)
  | .trigger t => some (0 :: triggerOctets t)
  | .global _ => none
  | .param _ => none
  | .identity _ => none
  | .screen _ => none
  | .eventClass _ => none
  | .claim _ => none
  | .arbiter _ => none
  | .substate _ => none

/-- The head of a response body: tag, request code, status, table read or 0, entry count returned. -/
def responseHead (r : Response) : Octets :=
  let p : Nat × Nat := match r.payload with
    | .entries t l => (t.code, l.length)
    | _ => (0, 0)
  [oct r.tag, oct r.code, oct (Status.code r.status), oct p.1, oct p.2]

/-! ## FL frames -/

/-- An FL frame: kind, subscription, FN, body. -/
def flFrame (kind : Nat) (u : Option Sub) (fn : Nat) (body : Octets) : Octets :=
  withCheck ([oct kind, oct (subCode u)] ++ oct2 fn ++ oct2 body.length ++ body)

/-- Purpose code of a GRANT. -/
def ClaimKind.purpose : ClaimKind → Nat
  | .handoverExec => 0
  | .reacquire => 1
  | .pageWatch => 2
  | .delivery => 3
  | .reply => 4
  | .measGap => 5
  | .connected => 6
  | .search => 7

/-- A GRANT body: purpose, key present, key; the octets of an absent key are 0 here (log entry 25). -/
def grantBody (g : Grant) : Octets :=
  match g.key with
  | some k => [oct g.purpose.purpose, 1] ++ keyOctets k
  | none => [oct g.purpose.purpose, 0, 0, 0, 0, 0]

/-- A REPLY item in five octets; a STORE_READY carries the two counts. -/
def replyItemOctets (free records : Nat) : ReplyItem → Octets
  | .textAck u reference index => [0, oct u.code, oct reference, oct index, 0]
  | .refuseSegment u cause reference index => [1, oct u.code, oct cause, oct reference, oct index]
  | .refusePage u itemRef => [2, oct u.code, 0, oct itemRef, 0]
  | .storeReady u => [3, oct u.code, oct free, oct records, 0]

/-- A REPLY body. -/
def replyBody (free records : Nat) (l : List ReplyItem) : Octets :=
  oct l.length :: (l.map (replyItemOctets free records)).flatten

/-- A MEAS_RESULT body. -/
def measResultBody (fn : Nat) (key : Key) (level : Int) (l : List Neighbour) : Octets :=
  oct2 fn ++ keyOctets key ++ int2 level ++ [oct l.length] ++
    (l.map (fun n => keyOctets n.key ++ int2 n.level ++ [flag n.triggered])).flatten

/-- A HANDOVER_DONE or HANDOVER_FAIL body; the cause is 255 for DONE. -/
def handoverBody (target : Key) (cause : Nat) (timing : Option Nat) : Octets :=
  keyOctets target ++ [oct cause] ++ timingOctets timing

/-- Message code and body of an uplink CONTROL frame of a subscription's queue; none for TRAFFIC. -/
def uplinkControl (u : Sub) (free records : Nat) : UplinkFrame → Option (Nat × Octets)
  | .traffic _ _ => none
  | .control code body => some (code, body)
  | .measResult fn key level l => some (5, measResultBody fn key level l)
  | .handoverDone target timing => some (6, handoverBody target 255 (some timing))
  | .handoverFail target cause timing => some (7, handoverBody target cause timing)
  | .textAck reference index => some (8, replyItemOctets free records (.textAck u reference index))
  | .textRefuse cause reference index => some (9, replyItemOctets free records (.refuseSegment u cause reference index))
  | .storeReady => some (10, replyItemOctets free records (.storeReady u))

def ownerOf : Owner → Option Sub
  | .sub u => some u
  | .common => none

/-- The octets of an FL frame that the device sends; none for uplink TRAFFIC, whose body 11.6 does not give. A CONTROL body
holds the message code in its octet 0. -/
def flOctets (fn : Nat) : FlFrame → Option Octets
  | .power on => some (flFrame 11 none fn [flag on])
  | .grant g => some (flFrame 10 (ownerOf g.owner) g.fn (grantBody g))
  | .reply u fn items free records => some (flFrame 12 (some u) fn (replyBody free records items))
  | .uplink u fn f free records => (uplinkControl u free records f).map (fun p => flFrame 8 (some u) fn (oct p.1 :: p.2))
  | .voice _ _ _ _ => none

/-! ## Bodies that arrive -/

def nat2 (a b : Byte) : Nat := 256 * a.toNat + b.toNat

/-- The cells of a MEAS_REPORT body, five octets each. -/
def decodeCells : Nat → Octets → List RawCell
  | n + 1, a :: b :: c :: d :: e :: l => { key := ⟨nat2 a b, nat2 c d⟩, level := e.toNat } :: decodeCells n l
  | _, _ => []

/-- A MEAS_REPORT body. -/
def decodeReport : Octets → List RawCell
  | [] => []
  | n :: l => decodeCells n.toNat l

/-- The halves of packed octets, high half first. -/
def halves (l : Octets) : List Nat := (l.map (fun b => [b.toNat / 16, b.toNat % 16])).flatten

/-- One item of a PAGE body in 14 octets. -/
def decodeItem (l : Octets) : PageItem :=
  let o := fun i => (l.getD i 0).toNat
  { kind := if o 0 = 0 then some .permanent else if o 0 = 1 then some .temporary else none
    digits := if o 0 = 0 then (halves ((l.drop 2).take 8)).take (o 1) else []
    number := if o 0 = 1 then ((o 6 * 256 + o 7) * 256 + o 8) * 256 + o 9 else 0
    base := o 10, span := o 11, follows := o 12, ref := o 13 }

/-- The items of a PAGE body. -/
def decodeItems : Nat → Octets → List PageItem
  | 0, _ => []
  | n + 1, l => if l.length < 14 then [] else decodeItem (l.take 14) :: decodeItems n (l.drop 14)

/-- A PAGE body. -/
def decodePage : Octets → List PageItem
  | [] => []
  | n :: l => decodeItems n.toNat l

end Sys2Proof.Machine
end

