-- ==== Sys2Proof/Machine/AppLink.lean ====
section
/-! DEFINITION. The commands of the application link outside management: LINK_READY (R173), frames that are not taken (R174), the
end of a transmission (R175), and uplink traffic and control (R11, R138). -/

namespace Sys2Proof.Machine

/-! ## LINK_READY (R173) -/

/-- DOWN to UP: the loss-announced mark is cleared, WAKE_REQ set anew. -/
def linkUp (s : State) : State :=
  setWake ((s.modBrt (fun b => { b with lossAnnounced := false })).modAlc (fun a => { a with up := true }))

/-- UP to DOWN: the frame in progress is abandoned, waiting responses are lost and counted, waiting forwarded frames are lost by
R134, and WAKE_REQ is set anew. -/
def linkDown (s : State) : State :=
  let waiting := s.alc.forwarded
  let s := s.modAlc (fun a => { a with
    up := false, tx := none, responses := [], forwarded := [],
    cnt := { a.cnt with responsesLost := satAdd a.cnt.responsesLost a.responses.length } })
  setWake (waiting.foldl (fun s f => loseForward f s) s)

/-- A change of LINK_READY; a level equal to the present one is no change. -/
def linkReadyEffect (asserted : Bool) (s : State) : State :=
  let s := s.modAlc (fun a => { a with linkReady := asserted })
  match asserted, s.alc.up with
  | true, false => linkUp s
  | false, true => linkDown s
  | _, _ => s

def execLinkReadyChange (asserted : Bool) (s : State) : Host.Outcome State Fault Refusal :=
  finish (linkReadyEffect asserted s)

/-! ## Frames that are not taken (R174) -/

/-- The fewest octets of a frame of a kind: six octets of head, the body's fixed fields, two of frame check (log entry 19). -/
def fixedLength (kind : Nat) : Nat := if kind = 2 then 10 else 8

/-- The frame kind is not one that the AL may send, or the frame is too short for its fixed fields or its body length. -/
def frameMalformed (l : Octets) : Bool :=
  let kind := (l.getD 0 255).toNat
  decide (2 < kind) || decide (l.length < fixedLength kind) ||
    decide (l.length < 8 + nat2 (l.getD 2 0) (l.getD 3 0))

/-- A frame on the AL that is not taken: DOWN, a bad frame check, a malformed frame, in this order (R174). -/
def rejectedEffect (l : Octets) (s : State) : State :=
  if checkHolds l = false then s.cntAlc (fun c => { c with checkErrors := satInc c.checkErrors })
  else if frameMalformed l then s.cntAlc (fun c => { c with malformedFrames := satInc c.malformedFrames })
  else s

def execAlFrameRejected (l : Octets) (s : State) : Host.Outcome State Fault Refusal := onAl s (rejectedEffect l)

/-! ## The end of a transmission (R175) -/

/-- The frame in transmission has been sent; an event record leaves the queue and is counted, unless a warm reset has removed it
(R179). -/
def transmitDone (s : State) : State :=
  match s.alc.tx with
  | none => s
  | some x =>
    let s := (s.modOut (fun o => { o with al := o.al ++ [x.frame] })).modAlc (fun a => { a with tx := none })
    match x.frame, x.detached with
    | .event _, false =>
      setWake (s.modAlc (fun a => { a with
        events := a.events.tail, cnt := { a.cnt with eventsSent := satInc a.cnt.eventsSent } }))
    | _, _ => s

def execAlTransmitDone (s : State) : Host.Outcome State Fault Refusal := finish (transmitDone s)

/-! ## Uplink (R11, R138) -/

/-- Uplink TRAFFIC (R138). -/
def upTrafficEffect (u : Option Sub) (bearer : Nat) (payload : Octets) (s : State) : State :=
  match u with
  | none => upDiscard s
  | some u =>
    if 31 < bearer then upDiscard s
    else
      let s := checkBearer bearer s
      let e := bearerAt s bearer
      let f := UplinkFrame.traffic bearer payload
      if e.damaged then
        if holdsLink s u then (joinQueue u f (s.cntBrt (fun c => { c with rawRouted := satInc c.rawRouted }))).1
        else upDiscard s
      else if e.val.state ≠ .idle ∧ e.val.owner = u ∧ e.val.cls ≠ .voice then (joinQueue u f s).1
      else upDiscard s

def execUplinkTraffic (u : Option Sub) (bearer : Nat) (payload : Octets) (s : State) : Host.Outcome State Fault Refusal :=
  onAl s (upTrafficEffect u bearer payload)

/-- Uplink CONTROL with a LINK_REQUEST (R11). -/
def linkRequestEffect (u : Option Sub) (body : Octets) (s : State) : State :=
  match u with
  | none => upDiscard s
  | some u => linkRequest u body s

def execLinkRequest (u : Option Sub) (body : Octets) (s : State) : Host.Outcome State Fault Refusal :=
  onAl s (linkRequestEffect u body)

/-- Uplink CONTROL with another message (R138). -/
def upControlEffect (u : Option Sub) (code : Nat) (body : Octets) (s : State) : State :=
  match u with
  | none => upDiscard s
  | some u => if holdsLink s u then (joinQueue u (.control code body) s).1 else upDiscard s

def execUplinkControlOther (u : Option Sub) (code : Nat) (body : Octets) (s : State) : Host.Outcome State Fault Refusal :=
  onAl s (upControlEffect u code body)

end Sys2Proof.Machine
end

