-- ==== Sys2Proof/Machine/Clock.lean ====
section
/-! DEFINITION. The commands of time and power: sleep-counted boundaries, marks, READY, the wake instant, the watchdog, and the
expiries that a frame start also carries out by itself (log entries 3 and 4). A command that says that a time has come acts
when the state is one in which it can come, and changes nothing otherwise. -/

namespace Sys2Proof.Machine

/-- The drawn length of a sleep-counted frame elapses (R20). -/
def execSleepBoundary (s : State) : Host.Outcome State Fault Refusal :=
  finish (match s.ftb.counting with
    | .sleep len => frameElapses len s
    | .marks => s)

/-- A FRAME_MARK (R28). -/
def execFrameMark (fn : Nat) (s : State) : Host.Outcome State Fault Refusal := finish (takeMark fn s)

/-- READY (R25). -/
def execReady (s : State) : Host.Outcome State Fault Refusal := finish (takeReady s)

/-- The sleep tick of the wake instant is reached while OFF (R23). -/
def wakeInstantEffect (s : State) : State :=
  match wakeInFrame s with
  | some w => powerOn (s.modFtb (fun f => { f with elapsed := max f.elapsed w }))
  | none => s

def execWakeInstant (s : State) : Host.Outcome State Fault Refusal := finish (wakeInstantEffect s)

/-- The mark watchdog runs out while ON (R32). -/
def markWatchdogEffect (s : State) : State :=
  if s.ftb.power = .on ∧ s.ftb.watchdog.isSome then watchdogExpiry s else s

def execMarkWatchdogExpiry (s : State) : Host.Outcome State Fault Refusal := finish (markWatchdogEffect s)

/-- A granted frame ends while WARMING without READY: the boundary that closes it (R26). -/
def warmUpFailureEffect (s : State) : State :=
  match s.ftb.power, s.ftb.counting with
  | .warming, .sleep len => if s.ftb.held.isSome then frameElapses len s else s
  | _, _ => s

def execWarmUpFailure (s : State) : Host.Outcome State Fault Refusal := finish (warmUpFailureEffect s)

/-- The connect guard of a subscription at its last step (R12). -/
def guardDue (s : State) (u : Sub) : Bool :=
  (s.sub u).state == .connecting && (s.sub u).guard.any (fun n => decide (n ≤ 1))

def execConnectGuardExpiry (u : Sub) (s : State) : Host.Outcome State Fault Refusal :=
  finish (if guardDue s u then connectTimeout u s else s)

/-- The handover guard at its last step (R119). -/
def hoGuardExpiryEffect (s : State) : State :=
  match s.hxu.run with
  | some r => if r.guard ≤ 1 then restore r 1 s else s
  | none => s

def execHandoverGuardExpiry (s : State) : Host.Outcome State Fault Refusal := finish (hoGuardExpiryEffect s)

/-- The REACQUIRE of a subscription has had its 32 granted frames (R50): it is removed and reported spent. Where none has, nothing
changes (log entry 3). -/
def reacquireSpentEffect (u : Sub) (s : State) : State :=
  if s.rta.claims.any (budgetGone u) then refreshWake (spendBudget u s) else s

def execReacquireBudgetSpent (u : Sub) (s : State) : Host.Outcome State Fault Refusal := finish (reacquireSpentEffect u s)

/-- The countdown of the open group in a record is at its last step (R156). -/
def groupExpiryEffect (i : Nat) (s : State) : State :=
  match groupAt s i with
  | some g =>
    match g.state with
    | .opened c => if c ≤ 1 then expireGroup i g s else s
    | .ready _ => s
  | none => s

def execGroupExpiry (i : Nat) (s : State) : Host.Outcome State Fault Refusal := finish (groupExpiryEffect i s)

/-- The HXU takes a waiting notice (R124). -/
def execTargetDamageNotice (s : State) : Host.Outcome State Fault Refusal :=
  finish (if s.hxu.notice then takeNotice s else s)

end Sys2Proof.Machine
end

