-- ==== Sys2Proof/Machine/FrontEnd.lean ====
section
/-! DEFINITION. The commands of the front end: PAGE, SUMMARY, MEAS_REPORT, ACQ_RESULT, SYNC_STATUS, IDLE_TEXT (chapters 5, 6, 7
and 9) and the downlink control and traffic frames (chapter 8, R168). -/

namespace Sys2Proof.Machine

/-! ## Measurements and pages -/

/-- A PAGE (R98): taken for a CAMPED subscription at its read occasion, else discarded. -/
def pageEffect (u : Option Sub) (fn : Nat) (items : List PageItem) (s : State) : State :=
  let discard := s.cntPgm (fun c => { c with pagesDiscarded := satInc c.pagesDiscarded })
  match u with
  | none => discard
  | some u =>
    if (s.sub u).state = .camped ∧ (s.pgm.recs.get u).readOccasion = some fn then takePage u fn items s else discard

def execPage (u : Option Sub) (fn : Nat) (items : List PageItem) (s : State) : Host.Outcome State Fault Refusal :=
  finish (pageEffect u fn items s)

/-- A subscription is served by the cell (R104). -/
def servedBy (s : State) (u : Sub) (k : Key) : Bool := isServed s u && servingKey s u == some k

/-- The serving fields of a subscription served by the summarised cell are replaced, and its watch moved where T or G has
changed (R96, R104). -/
def summaryFor (u : Sub) (k : Key) (t : Summary) (s : State) : State :=
  if servedBy s u k then
    let s := checkParam u s
    followRhythm u (rhythm s u) (setServing u k t.area t.tCell t.g s)
  else s

/-- The cell is the target of the handover in progress. -/
def isTarget (s : State) (k : Key) : Bool :=
  match s.hxu.run with
  | some r => r.target == k
  | none => false

/-- A SUMMARY (R104): the entry, then the subscriptions, then the target summary. -/
def summaryEffect (k : Key) (tCell g area : Nat) (barred : Bool) (s : State) : State :=
  if keyInRange k && cycleOk tCell && spacingOk g then
    let t : Summary := { tCell := tCell, g := g, area := area }
    match writeBarred k barred s with
    | (s, hit) =>
      if hit || servedBy s .A k || servedBy s .B k || isTarget s k then
        let s := summaryFor .B k t (summaryFor .A k t s)
        if isTarget s k then s.modPgm (fun p => { p with target := some t }) else s
      else s.cntPgm (fun c => { c with summariesUnmatched := satInc c.summariesUnmatched })
  else s.cntPgm (fun c => { c with summariesMalformed := satInc c.summariesMalformed })

def execSummary (k : Key) (tCell g area : Nat) (barred : Bool) (s : State) : Host.Outcome State Fault Refusal :=
  finish (summaryEffect k tCell g area barred s)

/-- A MEAS_REPORT (R76): taken for an attached subscription, else discarded. -/
def reportEffect (u : Option Sub) (cells : List RawCell) (s : State) : State :=
  let discard := s.modMfu (fun m => { m with discarded := satInc m.discarded })
  match u with
  | none => discard
  | some u => if (s.sub u).state = .detached then discard else takeReport u cells s

def execMeasReport (u : Option Sub) (_fn : Nat) (cells : List RawCell) (s : State) : Host.Outcome State Fault Refusal :=
  finish (reportEffect u cells s)

/-- A REACQUIRE result for `u` (R107): taken when the claim is in the list and names the cell. -/
def reacquireResult (u : Sub) (r : AcqResult) (s : State) : State :=
  if hasClaim s u .reacquire && (s.sub u).candidate == some r.key then
    match (s.sub u).state with
    | .search => initialResult u r (removeClaims (ownKind u .reacquire) s)
    | .camped =>
      if (s.sub u).reselecting then reselectResult u r (removeClaims (ownKind u .reacquire) s) else discardResult r s
    | _ => discardResult r s
  else discardResult r s

/-- An ACQ_RESULT (R107). -/
def acqEffect (r : AcqResult) (s : State) : State :=
  if acqInRange r then
    match r.purpose, r.owner with
    | some .reacquire, some (.sub u) => reacquireResult u r s
    | some .search, some (.sub u) => if inSearch s u then searchOffer u r s else discardResult r s
    | some .search, some .common =>
      if inSearch s .A || inSearch s .B then searchOffer .B r (searchOffer .A r s) else discardResult r s
    | _, _ => discardResult r s
  else s.cntPgm (fun c => { c with resultsDiscarded := satInc c.resultsDiscarded })

def execAcqResult (r : AcqResult) (s : State) : Host.Outcome State Fault Refusal := finish (acqEffect r s)

/-- A SYNC_STATUS (R114). -/
def syncEffect (u : Option Sub) (k : Key) (status : Option SyncResult) (timing : Nat) (s : State) : State :=
  match u, status with
  | some u, some status => if keyInRange k then takeSync u k status timing s else countUnused s
  | _, _ => countUnused s

def execSyncStatus (u : Option Sub) (k : Key) (status : Option SyncResult) (timing : Nat) (s : State) :
    Host.Outcome State Fault Refusal := finish (syncEffect u k status timing s)

/-- An IDLE_TEXT (R147): taken for a subscription with a serving cell, else discarded. -/
def idleTextEffect (u : Option Sub) (fn : Nat) (g : RawSegment) (s : State) : State :=
  let discard := s.cntTxs (fun c => { c with discarded := satInc c.discarded })
  match u with
  | none => discard
  | some u => if isServed s u then takeSegment (.idle fn) u g s else discard

def execIdleText (u : Option Sub) (fn : Nat) (g : RawSegment) (s : State) : Host.Outcome State Fault Refusal :=
  finish (idleTextEffect u fn g s)

/-! ## Downlink control (R13, R115, R135, R168) -/

/-- LINK_GRANT: handed to the SCS, then forwarded. -/
def linkGrantEffect (u : Option Sub) (body : Octets) (s : State) : State :=
  forward (.control u (.linkGrant body)) (match u with
    | some u => linkGrant u s
    | none => s)

def execLinkGrant (u : Option Sub) (body : Octets) (s : State) : Host.Outcome State Fault Refusal :=
  finish (linkGrantEffect u body s)

/-- LINK_RELEASE: handed to the SCS, then forwarded. -/
def linkReleaseEffect (u : Option Sub) (body : Octets) (s : State) : State :=
  forward (.control u (.linkRelease body)) (match u with
    | some u => linkRelease u s
    | none => s)

def execLinkRelease (u : Option Sub) (body : Octets) (s : State) : Host.Outcome State Fault Refusal :=
  finish (linkReleaseEffect u body s)

/-- HANDOVER_ORDER (R115). -/
def execHandoverOrder (u : Option Sub) (target : Key) (guard : Nat) (s : State) : Host.Outcome State Fault Refusal :=
  finish (takeOrder u target guard s)

/-- LOOP_ORDER (R168): honoured, or forwarded and counted. -/
def loopOrderEffect (u : Option Sub) (close : Bool) (s : State) : State :=
  let refuse := fun s : State =>
    forward (.control u (.loopOrder close)) (s.cntVpb (fun c => { c with ordersRefused := satInc c.ordersRefused }))
  match u with
  | none => refuse s
  | some b =>
    let s := checkParam b s
    if (effParam s b).acceptLoop && holdsLink s b then
      if close then closeRadioLoop b s else openRadioLoop true s
    else refuse s

def execLoopOrder (u : Option Sub) (close : Bool) (s : State) : Host.Outcome State Fault Refusal :=
  finish (loopOrderEffect u close s)

/-- Any other downlink message is forwarded (R135). -/
def execDownlinkControlOther (u : Option Sub) (code : Nat) (body : Octets) (s : State) : Host.Outcome State Fault Refusal :=
  finish (forward (.control u (.other code body)) s)

/-! ## Downlink traffic (R132, R133) -/

/-- A frame on an ACTIVE or HELD bearer by its class (R132). A TEXT payload that does not read as a segment is malformed. -/
def routeByClass (e : Bearer) (bearer seq : Nat) (payload : Octets) (text : Option RawSegment) (s : State) : State :=
  match e.cls with
  | .voice => takeDownlinkVoice { seq := seq % 256, payload := payload } s
  | .text =>
    match text with
    | some g => takeSegment .connected e.owner g s
    | none => s.cntTxs (fun c => { c with malformed := satInc c.malformed })
  | .signal => forward (.traffic e.owner false bearer payload) s
  | .data => forward (.traffic e.owner true bearer payload) s

/-- A downlink TRAFFIC frame (R132). -/
def downTrafficEffect (u : Option Sub) (bearer seq : Nat) (payload : Octets) (text : Option RawSegment) (s : State) : State :=
  match u with
  | none => downDiscard s
  | some b =>
    if 31 < bearer then downDiscard s
    else
      let s := checkBearer bearer s
      let e := bearerAt s bearer
      if e.damaged then
        forward (.raw (some b) bearer seq payload) (s.cntBrt (fun c => { c with rawRouted := satInc c.rawRouted }))
      else if e.val.state = .idle then downDiscard s
      else if e.val.owner ≠ b then downDiscard s
      else routeByClass e.val bearer seq payload text s

def execDownlinkTraffic (u : Option Sub) (bearer seq : Nat) (payload : Octets) (text : Option RawSegment) (s : State) :
    Host.Outcome State Fault Refusal := finish (downTrafficEffect u bearer seq payload text s)

/-! ## The codec port (R164, R166, R169) -/

/-- One codec period: the uplink half, then the pull. -/
def execCodecPeriod (payload : Octets) (s : State) : Host.Outcome State Fault Refusal :=
  finish (pull (takeCodecFrame payload s))

end Sys2Proof.Machine
end

