-- ==== Sys2Proof/Machine/Management.lean ====
section
/-! DEFINITION. The management requests (R176): writes and reads of tables (R177, R178), cells (R69, R70), attach and detach (R9,
R17), texts (R157), statistics (R185), the codec loop (R167) and check injection (R184). -/

namespace Sys2Proof.Machine

/-! ## TABLE_WRITE (R177) -/

/-- The write addresses entries beyond the table, or carries no entry. -/
def writeRefusal (q : Nat) (first count : Nat) : Option Status :=
  if count = 0 then some .malformed else if q < first + count then some .outOfRange else none

/-- Answer a TABLE_WRITE that makes no change. -/
def refuseWrite (tag : Nat) (st : Status) (s : State) : State := answer .tableWrite tag st .none s

def doneStatus (clamped : Bool) : Status := if clamped then .doneClamped else .done

/-- Write a list of entries at consecutive indices. -/
def writeFrom {α : Type} (f : Nat → α → State → State) : Nat → List α → State → State
  | _, [], s => s
  | i, x :: l, s => writeFrom f (i + 1) l (f i x s)

/-- Write the GLOBAL entry (R21, R161): a change of the effective mode restarts the statistic, and the wake instant is computed
again. -/
def storeGlobal (e : GlobalEntry) (s : State) : State :=
  let s1 := s.modTab (fun t => { t with global := .fresh e })
  setWakeInstant (if (effGlobal s1).mode = (effGlobal s).mode then s1 else restartOcc s1)

def writeGlobal (tag first : Nat) (l : List GlobalWrite) (s : State) : State :=
  match writeRefusal 1 first l.length, l with
  | none, w :: _ =>
    match w.mode with
    | none => refuseWrite tag .outOfRange s
    | some m => answer .tableWrite tag (doneStatus (globalNeedsClamp w)) .none (storeGlobal (clampGlobal w m) s)
  | some st, _ => refuseWrite tag st s
  | none, [] => refuseWrite tag .malformed s

def execTableWriteGlobal (tag first : Nat) (l : List GlobalWrite) (s : State) : Host.Outcome State Fault Refusal :=
  onAl s (writeGlobal tag first l)

/-- The subscription of a PARAM index (R177). -/
def paramSub (i : Nat) : Sub := if i = 0 then .A else .B

/-- Write one PARAM entry, with the changes of R6. A request that carries both entries writes A's and makes its changes before it
writes B's (log entry 58). -/
def storeParam (i : Nat) (w : ParamWrite) (s : State) : State :=
  paramChanged (paramSub i) (setParam (paramSub i) (.fresh (clampParam w)) s)

def writeParam (tag first : Nat) (l : List ParamWrite) (s : State) : State :=
  match writeRefusal 2 first l.length with
  | some st => refuseWrite tag st s
  | none => answer .tableWrite tag (doneStatus (l.any paramNeedsClamp)) .none (writeFrom storeParam first l s)

def execTableWriteParam (tag first : Nat) (l : List ParamWrite) (s : State) : Host.Outcome State Fault Refusal :=
  onAl s (writeParam tag first l)

def storeIdentity (i : Nat) (e : IdentityEntry) (s : State) : State := setIdentity i (.fresh e) s

/-- The request touches an identity entry of `u`. -/
def touches (u : Sub) (first count : Nat) : Bool := (List.range count).any (fun k => identitySub (first + k) == u)

def writeIdentity (tag first : Nat) (l : List IdentityWrite) (s : State) : State :=
  match writeRefusal 8 first l.length with
  | some st => refuseWrite tag st s
  | none =>
    if l.all (fun w => (identityOfWrite w).isSome) then
      let s := writeFrom storeIdentity first (l.filterMap identityOfWrite) s
      let s := if touches .A first l.length then rekey .A s else s
      let s := if touches .B first l.length then rekey .B s else s
      answer .tableWrite tag .done .none s
    else refuseWrite tag .outOfRange s

def execTableWriteIdentity (tag first : Nat) (l : List IdentityWrite) (s : State) : Host.Outcome State Fault Refusal :=
  onAl s (writeIdentity tag first l)

def storeScreen (i : Nat) (w : BitVec 16) (s : State) : State := setScreen i (.fresh w) s

def writeScreen (tag first : Nat) (l : List (BitVec 16)) (s : State) : State :=
  match writeRefusal 32 first l.length with
  | some st => refuseWrite tag st s
  | none => answer .tableWrite tag .done .none (writeFrom storeScreen first l s)

def execTableWriteScreen (tag first : Nat) (l : List (BitVec 16)) (s : State) : Host.Outcome State Fault Refusal :=
  onAl s (writeScreen tag first l)

/-! ### BEARER (R130) -/

/-- An entry whose three fields are defined. -/
def bearerOfWrite (w : BearerWrite) : Option Bearer :=
  match w.owner, w.cls, w.state with
  | some o, some c, some st => some { owner := o, cls := c, state := st }
  | _, _, _ => none

/-- Some addressed entry is HELD and not damaged. -/
def heldAddressed (s : State) (first count : Nat) : Bool :=
  (List.range count).any (fun k => let e := bearerAt s (first + k); !e.damaged && e.val.state == .held)

/-- An entry written ACTIVE whose owner is neither CONNECTING nor CONNECTED. -/
def activeUnlinked (s : State) (e : Bearer) : Bool :=
  e.state == .active && !((s.sub e.owner).state == .connecting || (s.sub e.owner).state == .connected)

/-- A live VOICE bearer: not damaged, VOICE, ACTIVE or HELD. -/
def liveVoice (e : Checked Bearer) : Bool := bearerLive e && e.val.cls == .voice

def countVoice (s : State) : Nat := s.tab.bearer.countP liveVoice

/-- The read of the bearer entries for which `p` holds, in index order (R129). -/
def checkBearers (p : Nat → Bool) (s : State) : State :=
  (List.range 32).foldl (fun s i => if p i then checkBearer i s else s) s

/-- Entry `i` is one of the `count` addressed from `first` on. -/
def addressed (first count i : Nat) : Bool := decide (first ≤ i) && decide (i < first + count)

def storeBearer (i : Nat) (e : Bearer) (s : State) : State := setBearer i (.fresh e) s

/-- Playout follows the table after a write (R130, R162): it ends when its bearer is no longer the live VOICE bearer, and is
activated on a new one (log entry 27). -/
def followVoice (s : State) : State :=
  match voiceBearer s, s.vpb.play with
  | none, _ => endPlayout s
  | some i, none => activatePlayout i (bearerAt s i).val.owner s
  | some i, some p => if p.bearer = i then s else activatePlayout i (bearerAt s i).val.owner (endPlayout s)

/-- The write of entries that passed the tests of form and of state (R130): the voice test, for which the entries that the
request does not address are read, then the write. -/
def writeBearers (tag first : Nat) (l : List Bearer) (s : State) : State :=
  let s := checkBearers (fun i => !addressed first l.length i) s
  let s' := writeFrom storeBearer first l s
  if 1 < countVoice s' then refuseWrite tag .wrongState s
  else answer .tableWrite tag .done .none (followVoice s')

/-- The tests of state (R130), the addressed entries having been read: one that the read has found uncorrectable is no longer
HELD (R129). -/
def testBearers (tag first : Nat) (l : List Bearer) (s : State) : State :=
  if heldAddressed s first l.length then refuseWrite tag .wrongState s
  else if l.any (activeUnlinked s) then refuseWrite tag .wrongState s
  else writeBearers tag first l s

def writeBearer (tag first : Nat) (l : List BearerWrite) (s : State) : State :=
  match writeRefusal 32 first l.length with
  | some st => refuseWrite tag st s
  | none =>
    let es := l.filterMap bearerOfWrite
    if l.any (fun w => (bearerOfWrite w).isNone) then refuseWrite tag .outOfRange s
    else if es.any (fun e => e.state == .held) then refuseWrite tag .outOfRange s
    else testBearers tag first es (checkBearers (addressed first l.length) s)

def execTableWriteBearer (tag first : Nat) (l : List BearerWrite) (s : State) : Host.Outcome State Fault Refusal :=
  onAl s (writeBearer tag first l)

/-! ### EVENT_CLASS and tables that are not written -/

def storeClass (i : Nat) (c : EventClass) (s : State) : State := setClassEntry i (.fresh c) s

def writeEventClass (tag first : Nat) (l : List (Option EventClass)) (s : State) : State :=
  match writeRefusal 22 first l.length with
  | some st => refuseWrite tag st s
  | none =>
    if l.all Option.isSome then answer .tableWrite tag .done .none (writeFrom storeClass first (l.filterMap id) s)
    else refuseWrite tag .outOfRange s

def execTableWriteEventClass (tag first : Nat) (l : List (Option EventClass)) (s : State) :
    Host.Outcome State Fault Refusal := onAl s (writeEventClass tag first l)

def execTableWriteNoSuchTable (tag _table : Nat) (s : State) : Host.Outcome State Fault Refusal :=
  onAl s (refuseWrite tag .noSuchTable)

/-! ## TABLE_READ (R178) -/

/-- A use of an EVENT_CLASS entry by a read (R182). -/
def checkClass (i : Nat) (s : State) : State := useEntry .eventClass i (classEntry s i) (setClassEntry i) s

/-- An entry as read: damaged, or its value. -/
def readChecked {α : Type} (e : Checked α) (f : α → ReadEntry) : ReadEntry := if e.damaged then .damaged else f e.val

def viewClaim (c : Claim) : ClaimView :=
  { owner := c.owner, kind := c.kind, start := c.start, length := c.length, origin := c.origin, granted := c.granted }

/-- The CLAIMS view (R54). -/
def readClaims (s : State) (i : Nat) : ReadEntry :=
  if i = 16 then
    .arbiter { connected := s.rta.connected, hoExec := s.rta.hoExec, lastGranted := s.rta.lastGranted,
               missed := ⟨(s.sub .A).missed, (s.sub .B).missed⟩ }
  else match s.rta.claims[i]? with
    | some c => .claim (viewClaim c)
    | none => .empty

/-- The FALLBACK view (R127). -/
def readFallback (s : State) (i : Nat) : ReadEntry :=
  if i = 0 then
    .fallback { frozen := s.ctb.frozen && s.hxu.run.isSome, run := s.hxu.run,
                records := match s.hxu.run with
                  | some r => r.triggers.length
                  | none => 0
                timing := s.hxu.timing }
  else match s.hxu.run with
    | some r => match r.triggers[i - 1]? with
      | some t => .trigger t
      | none => .empty
    | none => .empty

/-- Read one entry: a stored table's entry is checked first (R178, R182). -/
def readEntry (t : TableId) (i : Nat) (s : State) : State × ReadEntry :=
  match t with
  | .global => let s := useGlobal s; (s, readChecked s.tab.global .global)
  | .param => let s := checkParam (paramSub i) s; (s, readChecked (s.tab.param.get (paramSub i)) .param)
  | .identity => let s := checkIdentity i s; (s, readChecked (identityAt s i) .identity)
  | .screen => let s := checkScreen i s; (s, readChecked (screenAt s i) .screen)
  | .bearer => let s := checkBearer i s; (s, readChecked (bearerAt s i) .bearer)
  | .eventClass =>
    if 21 < i then (s, .eventClass .suppressed)
    else let s := checkClass i s; (s, readChecked (classEntry s i) .eventClass)
  | .cell => let s := useCell i s; (s, if (cellAt s i).valid then .cell (cellAt s i) else .empty)
  | .claims => (s, readClaims s i)
  | .substate => (s, .substate (s.sub (paramSub i)))
  | .fallback => (s, readFallback s i)

/-- Read entries at the given indices, in order. -/
def readAll (t : TableId) : List Nat → State → State × List ReadEntry
  | [], s => (s, [])
  | i :: l, s =>
    match readEntry t i s with
    | (s, e) => match readAll t l s with
      | (s, es) => (s, e :: es)

/-- The indices of a read of `n` entries from `first`, wrapping. -/
def readIndices (t : TableId) (first n : Nat) : List Nat :=
  (List.range (min n t.size)).map (fun k => (first + k) % t.size)

/-- Entries are read and the cursor moves on (R178). -/
def readTable (tag : Nat) (t : TableId) (first n : Nat) (s : State) : State :=
  match readAll t (readIndices t first n) s with
  | (s, es) =>
    answer .tableRead tag .done (.entries t es)
      (s.modAlc (fun a => { a with cursor := (t, (first + min n t.size) % t.size) }))

def tableReadEffect (tag table : Nat) (first : Option Nat) (count : Nat) (s : State) : State :=
  match TableId.ofCode table with
  | none => answer .tableRead tag .noSuchTable .none s
  | some t =>
    if count = 0 ∨ 16 < count then answer .tableRead tag .outOfRange .none s
    else match first with
      | some i => if t.size ≤ i then answer .tableRead tag .outOfRange .none s else readTable tag t i count s
      | none => readTable tag s.alc.cursor.1 s.alc.cursor.2 count s

def execTableRead (tag table : Nat) (first : Option Nat) (count : Nat) (s : State) : Host.Outcome State Fault Refusal :=
  onAl s (tableReadEffect tag table first count)

/-! ## Cells (R69, R70) -/

/-- The listing that a CELL_PUT writes. -/
def listCell (barred : Bool) (offset : Int) (c : Cell) : Cell := { c with listed := true, barred := barred, offset := offset }

/-- CELL_PUT (R69). Its look-up reads the entry, a checked use, before the entry is written (R59, R71; log entry 10). -/
def cellPutEffect (tag : Nat) (k : Key) (barred : Bool) (offset : Int) (s : State) : State :=
  if keyInRange k = false then answer .cellPut tag .outOfRange .none s
  else
    let x := clamp (-48) 48 offset
    let st := doneStatus (x != offset)
    match lookup k false s with
    | (s, some i) => answer .cellPut tag st (.entryNumber i) (modCell i (listCell barred x) s)
    | (s, none) =>
      match allocate k s with
      | (s, some i) => answer .cellPut tag st (.entryNumber i) (modCell i (listCell barred x) s)
      | (s, none) => answer .cellPut tag .frozen .none s

def execCellPut (tag : Nat) (k : Key) (barred : Bool) (offset : Int) (s : State) : Host.Outcome State Fault Refusal :=
  onAl s (cellPutEffect tag k barred offset)

def cellDropEffect (tag : Nat) (k : Key) (s : State) : State :=
  if keyInRange k = false then answer .cellDrop tag .outOfRange .none s
  else match lookup k false s with
    | (s, none) => answer .cellDrop tag .empty .none s
    | (s, some i) =>
      if (cellAt s i).pinned then answer .cellDrop tag .wrongState .none s
      else answer .cellDrop tag .done .none (setCell i Cell.invalid s)

def execCellDrop (tag : Nat) (k : Key) (s : State) : Host.Outcome State Fault Refusal := onAl s (cellDropEffect tag k)

/-! ## Attach and detach (R9, R17) -/

def attach (u : Sub) (initial : Option Key) (s : State) : State :=
  match initial with
  | some k =>
    insertClaim (newClaim (.sub u) .reacquire (fnAdd s.ftb.fn 1) 32 .none)
      (s.modSub u (fun r => { r with state := .search, candidate := some k }))
  | none => startSearch u (s.modSub u (fun r => { r with state := .search, candidate := none }))

/-- SUB_ATTACH (R9). One that meets both refusals is answered WRONG_STATE (log entry 53). -/
def subAttachEffect (tag : Nat) (u : Option Sub) (initial : Option Key) (s : State) : State :=
  match u with
  | none => answer .subAttach tag .malformed .none s
  | some u =>
    if (s.sub u).state ≠ .detached then answer .subAttach tag .wrongState .none s
    else if initial.any (fun k => !keyInRange k) then answer .subAttach tag .outOfRange .none s
    else answer .subAttach tag .done .none (attach u initial s)

def execSubAttach (tag : Nat) (u : Option Sub) (initial : Option Key) (s : State) : Host.Outcome State Fault Refusal :=
  onAl s (subAttachEffect tag u initial)

def subDetachEffect (tag : Nat) (u : Option Sub) (s : State) : State :=
  match u with
  | none => answer .subDetach tag .malformed .none s
  | some u =>
    match (s.sub u).state with
    | .handover => answer .subDetach tag .wrongState .none s
    | .detached => answer .subDetach tag .done .none s
    | _ => answer .subDetach tag .done .none (detach u s)

def execSubDetach (tag : Nat) (u : Option Sub) (s : State) : Host.Outcome State Fault Refusal :=
  onAl s (subDetachEffect tag u)

/-! ## Texts and statistics (R157, R185) -/

def textTakeEffect (tag : Nat) (s : State) : State :=
  match s.txs.ready with
  | [] => answer .textTake tag .empty .none s
  | i :: l =>
    match groupAt s i with
    | none => answer .textTake tag .empty .none s
    | some g =>
      let t := transferOf s g
      let s := (removeGroup i g (s.modTxs (fun x => { x with ready := l }))).cntTxs (fun c => { c with taken := satInc c.taken })
      answer .textTake tag .done (.text t) (watermarkTest s)

def execTextTake (tag : Nat) (s : State) : Host.Outcome State Fault Refusal := onAl s (textTakeEffect tag)

def playState (s : State) : PlayState :=
  match s.vpb.play with
  | none => .inactive
  | some p => match p.phase with
    | .armed => .armed
    | .prefill _ => .prefill
    | .playing _ => .playing

/-- The occupancy statistic as returned (R165): number, minimum and maximum of the samples held. -/
def occView (mode : OccMode) (o : Occ) : Nat × Option Nat × Option Nat :=
  match mode with
  | .realtime => (o.recent.length, o.recent.min?, o.recent.max?)
  | .accumulate => (o.count, o.low, o.high)

/-- The contents of a STATS_TAKE response (R185). -/
def statsOf (s : State) : Stats :=
  let mode := (effGlobal s).mode
  let o := occView mode s.vpb.occ
  { ftb := s.ftb.cnt, rta := s.rta.cnt, ctb := s.ctb.cnt, mfu := s.mfu, pgm := s.pgm.cnt, hxu := s.hxu.cnt, brt := s.brt.cnt,
    txs := s.txs.cnt, vpb := s.vpb.cnt, alc := s.alc.cnt,
    queued := ⟨(queueOf s .A).length, (queueOf s .B).length⟩,
    freeSlots := freeCount s, freeRecords := freeRecords s, readyGroups := s.txs.ready.length, play := playState s,
    events := s.alc.events.length, mode := mode, samples := o.1, low := o.2.1, high := o.2.2, tmc := s.tmc }

/-- No uncorrectable entry met, all TMC counters 0. -/
def Tmc.clear : Tmc := { correctable := List.replicate 7 0, uncorrectable := List.replicate 7 0, lastFail := none }

/-- Every counter of every block to 0, and the last fail record absent. -/
def clearCounters (s : State) : State :=
  let s := (((s.cntFtb (fun _ => {})).cntRta (fun _ => {})).cntCtb (fun _ => {})).modMfu (fun _ => {})
  let s := (((s.cntPgm (fun _ => {})).cntHxu (fun _ => {})).cntBrt (fun _ => {})).cntTxs (fun _ => {})
  ((s.cntVpb (fun _ => {})).cntAlc (fun _ => {})).modTmc (fun _ => Tmc.clear)

def statsTakeEffect (tag clear : Nat) (s : State) : State :=
  if 1 < clear then answer .statsTake tag .outOfRange .none s
  else
    let s := useGlobal s
    let x := statsOf s
    let s := if clear = 1 then clearCounters s else s
    let s := if clear = 1 ∨ x.mode = .accumulate then restartOcc s else s
    answer .statsTake tag .done (.stats x) s

def execStatsTake (tag clear : Nat) (s : State) : Host.Outcome State Fault Refusal := onAl s (statsTakeEffect tag clear)

/-! ## The codec loop (R167) -/

def voiceLoopEffect (tag : Nat) (setting : Option Bool) (s : State) : State :=
  match setting with
  | none => answer .voiceLoop tag .outOfRange .none s
  | some b => answer .voiceLoop tag .done .none (setCodecLoop b s)

def execVoiceLoop (tag : Nat) (setting : Option Bool) (s : State) : Host.Outcome State Fault Refusal :=
  onAl s (voiceLoopEffect tag setting)

/-! ## CHECK_INJECT (R184) -/

/-- The tables that a CHECK_INJECT may address (R177). -/
def injectable (t : TableId) : Bool := decide (t.code ≤ 6)

/-- The check of an entry, and whether the entry is marked damaged; a CELL entry has no mark. -/
def entryDamaged (t : TableId) (i : Nat) (s : State) : Bool :=
  match t with
  | .global => s.tab.global.damaged
  | .param => (s.tab.param.get (paramSub i)).damaged
  | .identity => (identityAt s i).damaged
  | .screen => (screenAt s i).damaged
  | .bearer => (bearerAt s i).damaged
  | .eventClass => (classEntry s i).damaged
  | _ => false

/-- The check code of an entry is rewritten wrong. -/
def spoil (t : TableId) (i : Nat) (c : Check) (s : State) : State :=
  match t with
  | .global => s.modTab (fun x => { x with global := { x.global with check := c } })
  | .param => setParam (paramSub i) { s.tab.param.get (paramSub i) with check := c } s
  | .identity => setIdentity i { identityAt s i with check := c } s
  | .screen => setScreen i { screenAt s i with check := c } s
  | .bearer => setBearer i { bearerAt s i with check := c } s
  | .eventClass => setClassEntry i { classEntry s i with check := c } s
  | .cell => setCell i { cellAt s i with check := c } s
  | _ => s

def injectLast (t : TableId) : Nat := if t = .eventClass then 22 else t.size

def checkInjectEffect (tag table i positions : Nat) (s : State) : State :=
  match TableId.ofCode table with
  | none => answer .checkInject tag .noSuchTable .none s
  | some t =>
    if injectable t = false then answer .checkInject tag .noSuchTable .none s
    else if (positions ≠ 1 ∧ positions ≠ 2) ∨ injectLast t ≤ i then answer .checkInject tag .outOfRange .none s
    else if t = .cell ∧ (cellAt s i).valid = false then answer .checkInject tag .empty .none s
    else if entryDamaged t i s then answer .checkInject tag .wrongState .none s
    else
      answer .checkInject tag .done .none
        ((spoil t i (if positions = 1 then .one else .two) s).cntAlc (fun c => { c with injections := satInc c.injections }))

def execCheckInject (tag table i positions : Nat) (s : State) : Host.Outcome State Fault Refusal :=
  onAl s (checkInjectEffect tag table i positions)

/-! ## Malformed requests (R176) -/

/-- A structurally wrong request is answered MALFORMED, echoing its tag and code, and counted. -/
def malformedEffect (tag code : Nat) (s : State) : State :=
  addResponse { tag := tag, code := code, status := .malformed, payload := .none }
    (s.cntAlc (fun c => { c with malformedRequests := satInc c.malformedRequests }))

def execMalformedRequest (tag code : Nat) (s : State) : Host.Outcome State Fault Refusal :=
  onAl s (malformedEffect tag code)

end Sys2Proof.Machine
end

