-- ==== Sys2Proof/Machine/Reset.lean ====
section
/-! DEFINITION. The two resets: power-on (R34 and the reset rule of each chapter) and warm (R179). -/

namespace Sys2Proof.Machine

/-! ## Power-on reset -/

/-- Every block at its power-on values, LINK_READY sampled at reset release (R173); the queue of commands is not the block's. -/
def powerOnEffect (s : State) : State :=
  setWake { State.reset with
    alc := { State.reset.alc with linkReady := s.alc.linkReady, up := s.alc.linkReady }
    pending := s.pending }

def execPowerOnReset (s : State) : Host.Outcome State Fault Refusal := finish (powerOnEffect s)

/-! ## Warm reset (R179) -/

/-- The timebase (R34): the front end goes OFF, a frame counted from its mark becomes sleep-counted, the rest is cleared. -/
def warmTimebase (s : State) : State :=
  let s := match s.ftb.power with
    | .on => powerDownOn s
    | .warming => powerOff s
    | .off => s
  s.modFtb (fun f => { f with held := none, comparePending := false, watchdog := none, wake := none })

/-- The claims (R56). -/
def warmArbiter (s : State) : State :=
  s.modRta (fun r => { r with claims := [], connected := ⟨false, false⟩, hoExec := none, lastGranted := none })

/-- A record (R18): K is derived again from the kept identities, each read being a checked use (R3, R182). -/
def warmRecord (u : Sub) (s : State) : State :=
  let s := readForKey (identitiesOf u) s
  s.modSub u (fun _ => { SubRec.reset with pagingKey := deriveKey s u })

/-- The Cell Table (R75). The entries are written with fresh codes and not read (log entry 10). -/
def warmCells (s : State) : State :=
  s.modCtb (fun t => { t with
    cells := t.cells.map Cell.warmReset, plru := List.replicate 16 ⟨false, false, false⟩, frozen := false })

/-- PGM, HXU, BRT and VPB (R112, R128, R144, R172). -/
def warmBlocks (s : State) : State :=
  let s := s.modPgm (fun p => { p with recs := ⟨{}, {}⟩, searchDue := false, target := none })
  let s := s.modHxu (fun h => { h with run := none, timing := ⟨none, none⟩, notice := false })
  let s := s.modBrt (fun b => { b with queues := ⟨[], []⟩, lossAnnounced := false })
  s.modVpb (fun v => { v with
    play := none, pendingUp := none, bound := none, codecLoop := false, radioLoop := none, occ := {} })

/-- The ALC (R179): the event queue cleared, a record in transmission detached from it, the read cursor at GLOBAL 0. -/
def warmLink (s : State) : State :=
  s.modAlc (fun a => { a with
    events := []
    tx := a.tx.map (fun x => match x.frame with
      | .event _ => { x with detached := true }
      | _ => x)
    cursor := (.global, 0) })

/-- The blocks take their warm-reset values. -/
def warmAll (s : State) : State :=
  let s := warmArbiter (warmTimebase s)
  let s := idleBearers .B (idleBearers .A s)
  let s := warmRecord .B (warmRecord .A s)
  let s := warmBlocks (warmCells (discardOpen (fun _ => true) s))
  clearCounters (warmLink s)

/-- WARM_RESET: the DONE response first, then the blocks, then START with argument 1 holding 1. -/
def warmEffect (tag : Nat) (s : State) : State :=
  setWake (post .start none 1 0 (warmAll (answer .warmReset tag .done .none s)))

def execWarmReset (tag : Nat) (s : State) : Host.Outcome State Fault Refusal := onAl s (warmEffect tag)

end Sys2Proof.Machine
end

