-- ==== Sys2Proof/Machine/Dispatch.lean ====
section
/-! DEFINITION. One arm per command. -/

namespace Sys2Proof.Machine

def exec (i : Instr) (s : State) : Host.Outcome State Fault Refusal :=
  match i with
  | .powerOnReset => Sys2Proof.Machine.execPowerOnReset s
  | .linkReadyChange asserted => Sys2Proof.Machine.execLinkReadyChange asserted s
  | .sleepBoundary => Sys2Proof.Machine.execSleepBoundary s
  | .frameMark fn => Sys2Proof.Machine.execFrameMark fn s
  | .ready => Sys2Proof.Machine.execReady s
  | .wakeInstant => Sys2Proof.Machine.execWakeInstant s
  | .markWatchdogExpiry => Sys2Proof.Machine.execMarkWatchdogExpiry s
  | .warmUpFailure => Sys2Proof.Machine.execWarmUpFailure s
  | .connectGuardExpiry u => Sys2Proof.Machine.execConnectGuardExpiry u s
  | .handoverGuardExpiry => Sys2Proof.Machine.execHandoverGuardExpiry s
  | .reacquireBudgetSpent u => Sys2Proof.Machine.execReacquireBudgetSpent u s
  | .groupExpiry record => Sys2Proof.Machine.execGroupExpiry record s
  | .targetDamageNotice => Sys2Proof.Machine.execTargetDamageNotice s
  | .codecPeriod payload => Sys2Proof.Machine.execCodecPeriod payload s
  | .page u fn items => Sys2Proof.Machine.execPage u fn items s
  | .summary key tCell g area barred => Sys2Proof.Machine.execSummary key tCell g area barred s
  | .measReport u fn cells => Sys2Proof.Machine.execMeasReport u fn cells s
  | .acqResult r => Sys2Proof.Machine.execAcqResult r s
  | .syncStatus u key status timing => Sys2Proof.Machine.execSyncStatus u key status timing s
  | .idleText u fn seg => Sys2Proof.Machine.execIdleText u fn seg s
  | .linkGrant u body => Sys2Proof.Machine.execLinkGrant u body s
  | .linkRelease u body => Sys2Proof.Machine.execLinkRelease u body s
  | .handoverOrder u target guard => Sys2Proof.Machine.execHandoverOrder u target guard s
  | .loopOrder u close => Sys2Proof.Machine.execLoopOrder u close s
  | .downlinkControlOther u code body => Sys2Proof.Machine.execDownlinkControlOther u code body s
  | .downlinkTraffic u bearer seq payload text => Sys2Proof.Machine.execDownlinkTraffic u bearer seq payload text s
  | .alFrameRejected octets => Sys2Proof.Machine.execAlFrameRejected octets s
  | .uplinkTraffic u bearer payload => Sys2Proof.Machine.execUplinkTraffic u bearer payload s
  | .linkRequest u body => Sys2Proof.Machine.execLinkRequest u body s
  | .uplinkControlOther u code body => Sys2Proof.Machine.execUplinkControlOther u code body s
  | .tableWriteGlobal tag first entries => Sys2Proof.Machine.execTableWriteGlobal tag first entries s
  | .tableWriteParam tag first entries => Sys2Proof.Machine.execTableWriteParam tag first entries s
  | .tableWriteIdentity tag first entries => Sys2Proof.Machine.execTableWriteIdentity tag first entries s
  | .tableWriteScreen tag first words => Sys2Proof.Machine.execTableWriteScreen tag first words s
  | .tableWriteBearer tag first entries => Sys2Proof.Machine.execTableWriteBearer tag first entries s
  | .tableWriteEventClass tag first classes => Sys2Proof.Machine.execTableWriteEventClass tag first classes s
  | .tableRead tag table first count => Sys2Proof.Machine.execTableRead tag table first count s
  | .cellPut tag key barred offset => Sys2Proof.Machine.execCellPut tag key barred offset s
  | .cellDrop tag key => Sys2Proof.Machine.execCellDrop tag key s
  | .subAttach tag u initial => Sys2Proof.Machine.execSubAttach tag u initial s
  | .subDetach tag u => Sys2Proof.Machine.execSubDetach tag u s
  | .textTake tag => Sys2Proof.Machine.execTextTake tag s
  | .statsTake tag clear => Sys2Proof.Machine.execStatsTake tag clear s
  | .voiceLoop tag setting => Sys2Proof.Machine.execVoiceLoop tag setting s
  | .checkInject tag table index positions => Sys2Proof.Machine.execCheckInject tag table index positions s
  | .warmReset tag => Sys2Proof.Machine.execWarmReset tag s
  | .malformedRequest tag code => Sys2Proof.Machine.execMalformedRequest tag code s
  | .alTransmitDone => Sys2Proof.Machine.execAlTransmitDone s
  | .tableWriteNoSuchTable tag table => Sys2Proof.Machine.execTableWriteNoSuchTable tag table s

end Sys2Proof.Machine
end

