-- ==== Sys2Proof/Safety.lean ====
section
/-! DEFINITION. The terms in which claims about the block are made: the parts of State and what leaves them as they
were, the responses and forwarded frames in the order in which they will go out, what the ends of links and handovers,
texts, searches, writes and frame starts leave, and the invariants that every step keeps. -/

namespace Sys2Proof.Machine

/-! ## Parts of the state and frames -/

/-- The parts of State. `fn` is also a piece of `ftb`; an effect on the timebase that keeps the frame number names `ftb`
only. -/
inductive Part where
  | fn | ftb | rta | subA | subB | global | param | identity | screen | bearer | eventClass | ctb | mfu | pgm | hxu | brt
  | txs | vpb | alc | tmc | fl | al | codec | pending
deriving DecidableEq, Repr

/-- The part reads the same in both states. -/
def Part.same (p : Part) (s t : State) : Prop :=
  match p with
  | .fn => t.ftb.fn = s.ftb.fn
  | .ftb => t.ftb = s.ftb
  | .rta => t.rta = s.rta
  | .subA => t.scs.a = s.scs.a
  | .subB => t.scs.b = s.scs.b
  | .global => t.tab.global = s.tab.global
  | .param => t.tab.param = s.tab.param
  | .identity => t.tab.identity = s.tab.identity
  | .screen => t.tab.screen = s.tab.screen
  | .bearer => t.tab.bearer = s.tab.bearer
  | .eventClass => t.tab.eventClass = s.tab.eventClass
  | .ctb => t.ctb = s.ctb
  | .mfu => t.mfu = s.mfu
  | .pgm => t.pgm = s.pgm
  | .hxu => t.hxu = s.hxu
  | .brt => t.brt = s.brt
  | .txs => t.txs = s.txs
  | .vpb => t.vpb = s.vpb
  | .alc => t.alc = s.alc
  | .tmc => t.tmc = s.tmc
  | .fl => t.out.fl = s.out.fl
  | .al => t.out.al = s.out.al
  | .codec => t.out.codec = s.out.codec
  | .pending => t.pending = s.pending

/-- Every part outside the list reads the same. -/
def onlyChanges (l : List Part) (s t : State) : Prop := ∀ p : Part, p ∉ l → p.same s t

/-- The record of a subscription as a part. -/
def subPart : Sub → Part
  | .A => .subA
  | .B => .subB

/-- What posting an event may change: the queue and transmitter, the checked EVENT_CLASS entry, and the TMC's record. -/
def postParts : List Part := [.alc, .eventClass, .tmc]

/-! ## The AL transmitter's order (R175) -/

/-- The responses not yet sent, in the order in which they go out: the one in transmission, then the waiting ones. -/
def responseTrail (a : Alc) : List Response :=
  (match a.tx with
    | some ⟨.response r, _⟩ => [r]
    | _ => []) ++ a.responses

/-- The forwarded frames not yet sent, in the order in which they go out. -/
def forwardTrail (a : Alc) : List Forward :=
  (match a.tx with
    | some ⟨.forward f, _⟩ => [f]
    | _ => []) ++ a.forwarded

/-- A response was made (R175): it stands behind those not yet sent, or, made while 16 wait, it was discarded and counted. -/
def responded (r : Response) (s t : State) : Prop :=
  if s.alc.responses.length < 16 then responseTrail t.alc = responseTrail s.alc ++ [r]
  else responseTrail t.alc = responseTrail s.alc ∧ t.alc.cnt.responsesLost = satInc s.alc.cnt.responsesLost

/-- A frame was forwarded with the link UP (R175): it stands behind those not yet sent, or was discarded and counted. -/
def forwardedUp (f : Forward) (s t : State) : Prop :=
  if s.alc.forwarded.length < 32 then forwardTrail t.alc = forwardTrail s.alc ++ [f]
  else forwardTrail t.alc = forwardTrail s.alc ∧ t.alc.cnt.forwardedLost = satInc s.alc.cnt.forwardedLost

/-- The rest of the link as it was: pins, link state, event queue, WAKE_REQ, read cursor and the forwarded frames. -/
def linkQuiet (a b : Alc) : Prop :=
  b.linkReady = a.linkReady ∧ b.up = a.up ∧ b.events = a.events ∧ b.wakeReq = a.wakeReq ∧ b.cursor = a.cursor ∧
    forwardTrail b = forwardTrail a

/-- A request was answered with `r` and did nothing else on the link, `k` being the ALC's counters before the response
(R175, R176). -/
def answered (r : Response) (k : AlcCounters) (s t : State) : Prop :=
  responded r s t ∧ linkQuiet s.alc t.alc ∧
    t.alc.cnt = (if s.alc.responses.length < 16 then k else { k with responsesLost := satInc k.responsesLost })

/-- A record of this kind, subscription and arguments, with the frame number of `s`, is in the queue. -/
def queued (s t : State) (kind : EventKind) (u : Option Sub) (a1 a2 : Int) : Prop :=
  ∃ e ∈ t.alc.events, e.kind = kind ∧ e.sub = u ∧ e.fn = s.ftb.fn ∧ e.arg1 = a1 ∧ e.arg2 = a2

/-- A use of the entry finds no wrong position: it is stored with none, or is marked damaged and not checked any more (R182). An
entry that a use has marked keeps its wrong check code. -/
def Checked.sound {α : Type} (e : Checked α) : Bool := e.damaged || e.check == .good

/-- No use of an entry of the seven checked tables finds a wrong position (R182). -/
def Clean (s : State) : Prop :=
  s.tab.global.sound = true ∧ (∀ u : Sub, (s.tab.param.get u).sound = true) ∧ (∀ e ∈ s.tab.identity, e.sound = true) ∧
    (∀ e ∈ s.tab.screen, e.sound = true) ∧ (∀ e ∈ s.tab.bearer, e.sound = true) ∧
    (∀ e ∈ s.tab.eventClass, e.sound = true) ∧ ∀ c ∈ s.ctb.cells, c.check = .good

/-- The class entry of a kind lets its record into a queue that has room: damaged, which reads as URGENT, or read clean and not
SUPPRESSED (R2, R180). -/
def postable (s : State) (kind : EventKind) : Prop :=
  ((classEntry s kind.code).damaged = true ∨
    (classEntry s kind.code).check = .good ∧ (classEntry s kind.code).val ≠ .suppressed) ∧ s.alc.events.length < 32

/-- The rows that arrive as a frame on the application link (R174). -/
def fromAl : Instr → Bool
  | .alFrameRejected _ => true
  | .uplinkTraffic _ _ _ => true
  | .linkRequest _ _ => true
  | .uplinkControlOther _ _ _ => true
  | .tableWriteGlobal _ _ _ => true
  | .tableWriteParam _ _ _ => true
  | .tableWriteIdentity _ _ _ => true
  | .tableWriteScreen _ _ _ => true
  | .tableWriteBearer _ _ _ => true
  | .tableWriteEventClass _ _ _ => true
  | .tableRead _ _ _ _ => true
  | .cellPut _ _ _ _ => true
  | .cellDrop _ _ => true
  | .subAttach _ _ _ => true
  | .subDetach _ _ => true
  | .textTake _ => true
  | .statsTake _ _ => true
  | .voiceLoop _ _ => true
  | .checkInject _ _ _ _ => true
  | .warmReset _ => true
  | .malformedRequest _ _ => true
  | .tableWriteNoSuchTable _ _ => true
  | .powerOnReset => false
  | .linkReadyChange _ => false
  | .sleepBoundary => false
  | .frameMark _ => false
  | .ready => false
  | .wakeInstant => false
  | .markWatchdogExpiry => false
  | .warmUpFailure => false
  | .connectGuardExpiry _ => false
  | .handoverGuardExpiry => false
  | .reacquireBudgetSpent _ => false
  | .groupExpiry _ => false
  | .targetDamageNotice => false
  | .codecPeriod _ => false
  | .page _ _ _ => false
  | .summary _ _ _ _ _ => false
  | .measReport _ _ _ => false
  | .acqResult _ => false
  | .syncStatus _ _ _ _ => false
  | .idleText _ _ _ => false
  | .linkGrant _ _ => false
  | .linkRelease _ _ => false
  | .handoverOrder _ _ _ => false
  | .loopOrder _ _ => false
  | .downlinkControlOther _ _ _ => false
  | .downlinkTraffic _ _ _ _ _ => false
  | .alTransmitDone => false

/-- A mark taken now falls before the middle of a sleep-counted frame (R29). -/
def beforeMiddle (f : Ftb) : Bool :=
  match f.counting with
  | .sleep len => decide (f.elapsed < len / 2)
  | .marks => false

/-! ## Changes of subscription state (1.6) -/

/-- The rows that make a frame start (R19). -/
def startsFrame : Instr → Bool
  | .sleepBoundary => true
  | .frameMark _ => true
  | .markWatchdogExpiry => true
  | .warmUpFailure => true
  | _ => false

/-- The command names the subscription, or names none. -/
def concerns (c : Instr) (u : Sub) : Bool :=
  match c with
  | .subAttach _ v _ => v == some u
  | .subDetach _ v => v == some u
  | .measReport v _ _ => v == some u
  | .acqResult r => r.owner == some (.sub u) || r.owner == some .common
  | .syncStatus v _ _ _ => v == some u
  | .linkGrant v _ => v == some u
  | .linkRelease v _ => v == some u
  | .handoverOrder v _ _ => v == some u
  | .linkRequest v _ => v == some u
  | .connectGuardExpiry v => v == u
  | _ => true

/-- Commands that may move a subscription they concern from state `a` to state `b`, by the table of 1.6. The two guards also run
out at a frame start (R12, R119). -/
def mayMove (c : Instr) (a b : SubState) : Bool :=
  match a, b, c with
  | .detached, .search, .subAttach _ _ _ => true
  | .search, .camped, .acqResult _ => true
  | .camped, .search, .measReport _ _ _ => true
  | .connecting, .search, .measReport _ _ _ => true
  | .connected, .search, .measReport _ _ _ => true
  | .camped, .connecting, .linkRequest _ _ => true
  | .connecting, .connected, .linkGrant _ _ => true
  | .connecting, .camped, .linkRelease _ _ => true
  | .connecting, .camped, .connectGuardExpiry _ => true
  | .connected, .camped, .linkRelease _ _ => true
  | .connected, .handover, .handoverOrder _ _ _ => true
  | .handover, .connected, .syncStatus _ _ _ _ => true
  | .handover, .connected, .handoverGuardExpiry => true
  | .handover, .connected, .targetDamageNotice => true
  | .handover, .camped, .linkRelease _ _ => true
  | .search, .detached, .subDetach _ _ => true
  | .camped, .detached, .subDetach _ _ => true
  | .connecting, .detached, .subDetach _ _ => true
  | .connected, .detached, .subDetach _ _ => true
  | _, .detached, .warmReset _ => true
  | _, .detached, .powerOnReset => true
  | .connecting, .camped, c => startsFrame c
  | .handover, .connected, c => startsFrame c
  | _, _, _ => false

/-! ## Ends of links and handovers -/

/-- The link-end effects on the way to CAMPED (R14): standing claim cleared, the subscription's undamaged bearers IDLE, its
queue flushed and counted, RADIO_LOOP not its own, guard and serving timing value absent. -/
def linkEnded (u : Sub) (s t : State) : Prop :=
  (t.sub u).state = .camped ∧ (t.sub u).guard = none ∧ t.rta.connected.get u = false ∧ queueOf t u = [] ∧
    t.brt.cnt.flushed = satAdd s.brt.cnt.flushed (queueOf s u).length ∧ t.hxu.timing.get u = none ∧
    (∀ i < 32, (bearerAt t i).damaged = false → (bearerAt t i).val.owner = u → (bearerAt t i).val.state = .idle) ∧
    t.vpb.radioLoop ≠ some u

/-- No handover runs any more (R121, R122, R123): HANDOVER_EXEC clear, the table not frozen, fallback frame, execution record,
target summary and damage notice gone. -/
def handoverOver (t : State) : Prop :=
  t.rta.hoExec = none ∧ t.ctb.frozen = false ∧ t.hxu.run = none ∧ t.hxu.notice = false ∧ t.pgm.target = none

/-- Each bearer entry of `u` that was in one state and is not damaged is now in the other (R131). -/
def bearersMoved (u : Sub) (old new : BearerState) (s t : State) : Prop :=
  ∀ i < 32, (bearerAt t i).damaged = false → (bearerAt s i).val.owner = u → (bearerAt s i).val.state = old →
    (bearerAt t i).val.state = new

/-- Back on the source with a cause (R122): CONNECTED with its claim and serving fields kept, HELD bearers ACTIVE, the report
at the head of the uplink queue, the restore counted. -/
def restored (r : HoRun) (cause : Nat) (s t : State) : Prop :=
  (t.sub r.sub).state = .connected ∧ handoverOver t ∧ t.rta.connected = s.rta.connected ∧
    queueOf t r.sub = .handoverFail r.target cause r.timing :: (queueOf s r.sub).take 15 ∧
    (∀ i < 32, (bearerAt t i).damaged = false → (bearerAt t i).val.owner = r.sub → (bearerAt t i).val.state ≠ .held) ∧
    bearersMoved r.sub .held .active s t ∧ t.hxu.cnt.restores = satInc s.hxu.cnt.restores ∧ t.hxu.timing = s.hxu.timing

/-- A gap of `u` stands in the list, one gap period ahead or held before (R51). -/
def gapHeld (u : Sub) (s t : State) : Prop :=
  ∃ c ∈ t.rta.claims, c.kind = .measGap ∧ c.owner = .sub u ∧
    (c.start = (s.ftb.fn + (effParam s u).gapPeriod) % 1024 ∨ c ∈ s.rta.claims)

/-- The record of the trigger list is written back: its entry is valid, holds its key and is owned by `u` (R122). -/
def matched (u : Sub) (s : State) (x : TrigRec) : Prop :=
  (cellAt s x.entry).valid = true ∧ (cellAt s x.entry).key = x.key ∧ ((cellAt s x.entry).part.get u).owned = true

/-- What a restore with a cause gives back besides `restored` (R122): the recorded trigger counts, but for the target, which has
the failed-target penalty and no trigger; the other entries as they were; RADIO_LOOP as at acceptance, a change announced; the
gap; HO_FAILED. -/
def sourceKept (r : HoRun) (cause : Nat) (s t : State) : Prop :=
  (∀ x ∈ r.triggers, matched r.sub s x →
    (cellAt t x.entry).valid = true ∧ (cellAt t x.entry).key = x.key ∧
      ((cellAt t x.entry).part.get r.sub).trigger = if x.key = r.target then 0 else x.count) ∧
  (∀ i < 64, (cellAt t i).valid = true → (cellAt t i).key = r.target →
    ((cellAt t i).part.get r.sub).trigger = 0 ∧ ((cellAt t i).part.get r.sub).penalty = (effParam s r.sub).penalty) ∧
  (∀ i < 64, (cellAt s i).valid = true → (cellAt s i).key ≠ r.target → (∀ x ∈ r.triggers, x.entry ≠ i) →
    cellAt t i = cellAt s i) ∧
  t.vpb.radioLoop = (if r.loop then some r.sub else none) ∧
  (s.vpb.radioLoop.isSome ≠ r.loop → s.alc.events.length < 31 → postable s .loopChanged →
    queued s t .loopChanged (some r.sub) 1 (if r.loop then 1 else 0)) ∧
  gapHeld r.sub s t ∧
  (s.alc.events.length < 31 → postable s .hoFailed → queued s t .hoFailed (some r.sub) cause r.target.channel)

/-- The trigger list of the fallback frame (R113): in entry-number order, one record of each valid entry that `u` owns with a
trigger count other than 0. -/
def triggersKept (r : HoRun) (t : State) : Prop :=
  r.triggers.Pairwise (fun x y => x.entry < y.entry) ∧
  (∀ x ∈ r.triggers, x.entry < 64 ∧ matched r.sub t x ∧ ((cellAt t x.entry).part.get r.sub).trigger = x.count ∧ x.count ≠ 0) ∧
  ∀ i < 64, (cellAt t i).valid = true → ((cellAt t i).part.get r.sub).owned = true →
    ((cellAt t i).part.get r.sub).trigger ≠ 0 →
    { entry := i, key := (cellAt t i).key, count := ((cellAt t i).part.get r.sub).trigger } ∈ r.triggers

/-! ## Search -/

/-- The search chain of `u` has started (R110): it joins a COMMON claim or chain; it makes one COMMON of the other's own, whose
claim goes and comes back as a COMMON one of the same start where that still lies ahead (log entry 29); or it has its own, with a
claim from the next frame on. -/
def searchStarted (u : Sub) (s t : State) : Prop :=
  let other := if inSearch s u.other then (s.pgm.recs.get u.other).chain else none
  if (∃ c ∈ s.rta.claims, c.kind = .search ∧ c.owner = .common) ∨ other = some .common then
    (t.pgm.recs.get u).chain = some .common ∧ ∀ c ∈ t.rta.claims, c.kind = .search → c ∈ s.rta.claims
  else match other with
    | some (.own start) =>
      (t.pgm.recs.get u).chain = some .common ∧ (t.pgm.recs.get u.other).chain = some .common ∧
        (∀ c ∈ t.rta.claims, ¬(c.kind = .search ∧ c.owner = .sub u.other)) ∧
        ((∃ c ∈ s.rta.claims, c.kind = .search ∧ c.owner = .sub u.other) → 1 ≤ fnDist s.ftb.fn start →
          fnDist s.ftb.fn start ≤ 511 → ∃ c ∈ t.rta.claims, c.kind = .search ∧ c.owner = .common ∧ c.start = start ∧
            4 ≤ c.length)
    | _ =>
      (t.pgm.recs.get u).chain = some (.own ((s.ftb.fn + 1) % 1024)) ∧
        ∃ c ∈ t.rta.claims, c.kind = .search ∧ c.owner = .sub u ∧ c.start = (s.ftb.fn + 1) % 1024 ∧ 4 ≤ c.length

/-! ## Texts -/

/-- The group has the key of the segment (R146). -/
def keyed (u : Sub) (g : RawSegment) (h : Group) : Bool := h.hasKey u g.sender g.reference

/-- Record `i` holds the group of the segment's key, and no other record does. -/
def groupOf (s : State) (u : Sub) (g : RawSegment) (i : Nat) (h : Group) : Prop :=
  i < 12 ∧ groupAt s i = some h ∧ keyed u g h = true ∧ ∀ j < 12, j ≠ i → ∀ x ∈ (groupAt s j).toList, keyed u g x = false

/-- The store full case of R148: no slot is free, or a new group finds no free record; a group of the key is OPEN, of the same
total, and lacks the index. -/
def storeFullFor (s : State) (u : Sub) (g : RawSegment) : Prop :=
  s.txs.slots.length = 48 ∧ s.txs.groups.length = 12 ∧
    (∀ j < 12, ∀ x ∈ (groupAt s j).toList, keyed u g x = true → x.total = g.total ∧ g.index ∉ x.received ∧ isOpen x = true) ∧
    (freeCount s = 0 ∨ freeRecords s = 0 ∧ ∀ j < 12, ∀ x ∈ (groupAt s j).toList, keyed u g x = false)

/-- The REPLY that takes the answers to the segments of the IDLE_TEXT of frame `fn` (R102): that of the reply window where the
frame lies in the window's delivery, as long as it has not been decided. One whose GRANT a warm-up holds has been (log entry
48). -/
def answerReply (s : State) (u : Sub) (fn : Nat) : Option Claim :=
  (s.pgm.recs.get u).window.bind (fun w => w.deliveryEnd.bind (fun e =>
    if 1 ≤ fnDist w.occasion fn ∧ fnDist w.occasion fn ≤ fnDist w.occasion e then
      (s.rta.claims.find? (isReplyAt u w.replyFn)).filter (fun c => !decided s c)
    else none))

/-- The items that the claim has when the answer is offered: a refusal that takes the store notice state out of READY_DUE has
withdrawn a STORE_READY before (R103, R152; log entry 50). -/
def itemsAtOffer (u : Sub) (s t : State) (c : Claim) : List ReplyItem :=
  if (s.sub u).notice = .readyDue ∧ (t.sub u).notice ≠ .readyDue then c.items.filter (· != .storeReady u) else c.items

/-- The answer `x` to a segment of the IDLE_TEXT of frame `fn` (R35, R102, R151): it joins the REPLY that takes it behind the
items there, is refused and lost where that holds four, and unplaced and lost where there is none. -/
def idleAnswered (u : Sub) (fn : Nat) (x : ReplyItem) (s t : State) : Prop :=
  match answerReply s u fn with
  | some c =>
    t.pgm.cnt.itemsUnplaced = s.pgm.cnt.itemsUnplaced ∧
    if (itemsAtOffer u s t c).length < 4 then
      t.txs.cnt.answersLost = s.txs.cnt.answersLost ∧ t.rta.cnt = s.rta.cnt ∧
        ∃ d ∈ t.rta.claims, d.serial = c.serial ∧ d.items = itemsAtOffer u s t c ++ [x]
    else
      t.txs.cnt.answersLost = satInc s.txs.cnt.answersLost ∧
        t.rta.cnt = { s.rta.cnt with itemsRefused := satInc s.rta.cnt.itemsRefused } ∧
        t.rta.claims.map (fun d => d.serial) = s.rta.claims.map (fun d => d.serial) ∧
        ∃ d ∈ t.rta.claims, d.serial = c.serial ∧ d.items = itemsAtOffer u s t c
  | none =>
    t.txs.cnt.answersLost = satInc s.txs.cnt.answersLost ∧ t.pgm.cnt.itemsUnplaced = satInc s.pgm.cnt.itemsUnplaced ∧
      t.rta.cnt = s.rta.cnt ∧ ((t.sub u).notice = (s.sub u).notice → t.rta = s.rta)

/-! ## Invariants -/

/-- The tables and stores have the sizes that R57, R60, R136, R145, R146, R177 and R182 give them. -/
def SizesInv (s : State) : Prop :=
  s.ctb.cells.length = 64 ∧ s.ctb.plru.length = 16 ∧ s.tab.identity.length = 8 ∧ s.tab.screen.length = 32 ∧
    s.tab.bearer.length = 32 ∧ s.tab.eventClass.length = 32 ∧ s.txs.slots.length = 48 ∧ s.txs.groups.length = 12 ∧
    s.tmc.correctable.length = 7 ∧ s.tmc.uncorrectable.length = 7

/-- FN lies in 0..1023 and the accumulator r in 0..99 (R19, R20). -/
def FrameInv (s : State) : Prop := s.ftb.fn < 1024 ∧ s.ftb.acc < 100

/-- WAKE_REQ is asserted exactly while the link is DOWN and an urgent record is queued (R181). -/
def WakeInv (s : State) : Prop :=
  s.alc.wakeReq = true ↔ s.alc.up = false ∧ ∃ e ∈ s.alc.events, e.cls = .urgent

/-- The link is UP exactly while LINK_READY is asserted, and DOWN with nothing in transmission and no response or frame
waiting (R173); a record in transmission is the head of the event queue, and the transmitter is never free with the link UP
and something to send (R175). -/
def TransmitInv (s : State) : Prop :=
  s.alc.up = s.alc.linkReady ∧
    (s.alc.up = false → s.alc.tx = none ∧ s.alc.responses = [] ∧ s.alc.forwarded = []) ∧
    (headSending s.alc = true → s.alc.events.head?.map AlFrame.event = s.alc.tx.map (fun x => x.frame)) ∧
    (s.alc.up = true → s.alc.tx = none → s.alc.responses = [] ∧ s.alc.forwarded = [] ∧ s.alc.events = [])

/-- No queue holds more than its rule allows: 16 timed claims (R37), 16 frames in each uplink queue (R139), 16 responses and
32 forwarded frames waiting (R175), 32 event records (R180). -/
def BoundsInv (s : State) : Prop :=
  s.rta.claims.length ≤ 16 ∧ (∀ u : Sub, (s.brt.queues.get u).length ≤ 16) ∧ s.alc.responses.length ≤ 16 ∧
    s.alc.forwarded.length ≤ 32 ∧ s.alc.events.length ≤ 32

/-- A kind that the claims list holds (R35). -/
def timedKind : ClaimKind → Bool
  | .handoverExec => false
  | .connected => false
  | _ => true

/-- The claims list (R35, R37, R38): at most 16 claims of the timed kinds, no two with the same owner, kind and start, no REPLY
with more than four items, COMMON owning searches only; insertion numbers distinct and below the next one. -/
def ClaimsInv (s : State) : Prop :=
  s.rta.claims.length ≤ 16 ∧
    s.rta.claims.Pairwise (fun c d => sameClaim c d = false ∧ c.serial ≠ d.serial) ∧
    ∀ c ∈ s.rta.claims, timedKind c.kind = true ∧ c.items.length ≤ 4 ∧ (c.owner = .common → c.kind = .search) ∧
      c.serial < s.rta.nextSerial

/-- Presence of the optional fields of a record (R1, R8): serving fields exactly in CAMPED, CONNECTING, CONNECTED and HANDOVER,
the guard exactly in CONNECTING, a reselection only while CAMPED and with its candidate, a candidate only in SEARCH or in a
reselection, a search chain (R94) only in SEARCH with no candidate. -/
def ContextInv (s : State) : Prop :=
  ∀ u : Sub,
    (s.sub u).serving.isSome = isServed s u ∧
    ((s.sub u).guard.isSome = true ↔ (s.sub u).state = .connecting) ∧
    ((s.sub u).reselecting = true → (s.sub u).state = .camped ∧ (s.sub u).candidate.isSome = true) ∧
    ((s.sub u).candidate.isSome = true → (s.sub u).state = .search ∨ (s.sub u).reselecting = true) ∧
    ((s.pgm.recs.get u).chain.isSome = true → inSearch s u = true)

/-- A handover runs exactly while its subscription is in HANDOVER, HANDOVER_EXEC is its, and the Cell Table is frozen; its trigger
list is in entry-number order (R36, R65, R113, R116). -/
def HandoverInv (s : State) : Prop :=
  (∀ u : Sub, (s.sub u).state = .handover ↔ s.hxu.run.map (fun r => r.sub) = some u) ∧
    s.rta.hoExec = s.hxu.run.map (fun r => r.sub) ∧ s.ctb.frozen = s.hxu.run.isSome ∧
    ∀ r, s.hxu.run = some r → r.triggers.Pairwise (fun x y => x.entry < y.entry)

/-- At most one subscription is in CONNECTING, CONNECTED or HANDOVER, exactly that one has its CONNECTED standing claim set, and
only it can be the loop subscription (R11, R36, R168). -/
def LinkInv (s : State) : Prop :=
  ¬ (holdsLink s .A = true ∧ holdsLink s .B = true) ∧
    (∀ u : Sub, s.rta.connected.get u = holdsLink s u) ∧
    ∀ u : Sub, s.vpb.radioLoop = some u → holdsLink s u = true

/-- A cell is held in its own set and once, and the entry pinned SERVING for a subscription is the one that holds its serving
cell key; HO_TARGET stands on the target of the running handover (R10, R58, R64). -/
def ServingInv (s : State) : Prop :=
  (∀ i : Nat, (cellAt s i).valid = true → setOf (cellAt s i).key = i / 4) ∧
    (∀ i j : Nat, (cellAt s i).valid = true → (cellAt s j).valid = true → (cellAt s i).key = (cellAt s j).key → i = j) ∧
    (∀ (i : Nat) (u : Sub), (cellAt s i).valid = true → (cellAt s i).serving.get u = true →
      (s.sub u).serving.map (fun v => v.key) = some (cellAt s i).key) ∧
    (∀ (u : Sub) (v : Serving), (s.sub u).serving = some v →
      ∃ i : Nat, (cellAt s i).valid = true ∧ (cellAt s i).serving.get u = true ∧ (cellAt s i).key = v.key) ∧
    ∀ i : Nat, (cellAt s i).valid = true → (cellAt s i).hoTarget = true →
      s.hxu.run.map (fun r => r.target) = some (cellAt s i).key

/-- The contexts whole: what the statement about serving entries needs of the other invariants. -/
def CoreInv (s : State) : Prop := SizesInv s ∧ ContextInv s ∧ HandoverInv s ∧ LinkInv s ∧ ServingInv s

/-- A PARAM entry within the ranges of R4. -/
def paramInRange (p : Param) : Prop :=
  p.kIdle ≤ 7 ∧ p.kConn ≤ 7 ∧ p.hysteresis ≤ 30 ∧ (-140 ≤ p.weakDeclare ∧ p.weakDeclare ≤ -40) ∧
    (2 ≤ p.clearGap ∧ p.clearGap ≤ 16) ∧ (1 ≤ p.reselCount ∧ p.reselCount ≤ 15) ∧ p.hoMargin ≤ 30 ∧
    (1 ≤ p.timeToTrigger ∧ p.timeToTrigger ≤ 15) ∧ (1 ≤ p.staleLimit ∧ p.staleLimit ≤ 15) ∧
    (1 ≤ p.starvation ∧ p.starvation ≤ 15) ∧ (1 ≤ p.penalty ∧ p.penalty ≤ 15) ∧
    p.prefCycle ∈ [0, 32, 64, 128, 256] ∧ (16 ≤ p.gapPeriod ∧ p.gapPeriod ≤ 128) ∧
    (50 ≤ p.connectGuard ∧ p.connectGuard ≤ 500) ∧ (1 ≤ p.reassembly ∧ p.reassembly ≤ 255) ∧ p.screenLen ≤ 256 ∧
    p.areaCode ≤ 65535

/-- GLOBAL within the ranges of R21 and R161. -/
def globalInRange (g : GlobalEntry) : Prop :=
  33 ≤ g.lead ∧ g.lead ≤ 655 ∧ -64 ≤ g.drift ∧ g.drift ≤ 63 ∧ g.depth ∈ [2, 4, 8]

/-- Ranges (R4, R12, R21, R47, R113, R161, R182): PARAM and GLOBAL as stored, the two guards, the missed-occasion counts and the
TMC's counters. -/
def RangesInv (s : State) : Prop :=
  globalInRange s.tab.global.val ∧
    (∀ u : Sub, paramInRange (s.tab.param.get u).val ∧ (s.sub u).missed ≤ (effParam s u).starvation ∧
      ∀ n, (s.sub u).guard = some n → 1 ≤ n ∧ n ≤ 500) ∧
    (∀ r, s.hxu.run = some r → 1 ≤ r.guard ∧ r.guard ≤ 100) ∧
    (∀ n ∈ s.tmc.correctable, n ≤ 15) ∧ ∀ n ∈ s.tmc.uncorrectable, n ≤ 15

/-- A state in which a claim that has ended is renewed without a refusal or displacement: the claims list and the ranges in order,
no wrong position, FN and the effective cycles as R7 and R19 have them. -/
def Settled (s : State) : Prop :=
  ClaimsInv s ∧ RangesInv s ∧ Clean s ∧ s.ftb.fn < 1024 ∧
    ∀ (u : Sub) (v : Serving), (s.sub u).serving = some v → v.cycle ∈ [32, 64, 128, 256]

/-! ## Table writes, views and the choice of a way -/

/-- `y` is `x` where it lies in lo..hi, and else the bound nearest to it (R5). -/
def nearest (lo hi x y : Int) : Prop := (x < lo → y = lo) ∧ (hi < x → y = hi) ∧ (lo ≤ x → x ≤ hi → y = x)

/-- `n` is the largest of the list not above `x`, the least of it where `x` lies below all (R5, R161). -/
def largestNotAbove (l : List Nat) (x : Int) (n : Nat) : Prop :=
  n ∈ l ∧ (∀ m ∈ l, (m : Int) ≤ x → m ≤ n) ∧ ((n : Int) ≤ x ∨ ∀ m ∈ l, x < m ∧ n ≤ m)

/-- The PARAM entry stored for a write (R4, R5): numeric fields at the nearest value in range, flags as written. -/
def paramStored (w : ParamWrite) (p : Param) : Prop :=
  nearest 0 7 w.kIdle p.kIdle ∧ nearest 0 7 w.kConn p.kConn ∧ nearest 0 30 w.hysteresis p.hysteresis ∧
    nearest (-140) (-40) w.weakDeclare p.weakDeclare ∧ nearest 2 16 w.clearGap p.clearGap ∧
    nearest 1 15 w.reselCount p.reselCount ∧ nearest 0 30 w.hoMargin p.hoMargin ∧ nearest 1 15 w.timeToTrigger p.timeToTrigger ∧
    nearest 1 15 w.staleLimit p.staleLimit ∧ nearest 1 15 w.starvation p.starvation ∧ nearest 1 15 w.penalty p.penalty ∧
    largestNotAbove [0, 32, 64, 128, 256] w.prefCycle p.prefCycle ∧ nearest 16 128 w.gapPeriod p.gapPeriod ∧
    nearest 50 500 w.connectGuard p.connectGuard ∧ nearest 1 255 w.reassembly p.reassembly ∧
    nearest 0 256 w.screenLen p.screenLen ∧ nearest 0 65535 w.areaCode p.areaCode ∧
    p.discovery = w.discovery ∧ p.protectCall = w.protectCall ∧ p.acceptLoop = w.acceptLoop

/-- What a write of the PARAM entry of `u` changes at once (R6): trigger counts at 0, the recorded ones of its handover too
(R117), the effective cycle recomputed (R7), the missed-occasion count at most S; the rest of the record as it was. -/
def paramTaken (u : Sub) (s t : State) : Prop :=
  (∀ i < 64, (cellAt t i).valid = true → ((cellAt t i).part.get u).trigger = 0 ∧ ((cellAt t i).part.get u).reported = false) ∧
  (∀ r, t.hxu.run = some r → r.sub = u → ∀ x ∈ r.triggers, x.count = 0) ∧
  t.sub u = { s.sub u with
    missed := min (s.sub u).missed (effParam t u).starvation
    serving := (s.sub u).serving.map (fun v => { v with cycle :=
      if (effParam t u).prefCycle = 0 then v.tCell else min v.tCell (effParam t u).prefCycle }) }

/-- Entry `i` of the CLAIMS view (R54). -/
def claimsEntry (s : State) (i : Nat) : ReadEntry :=
  if i = 16 then
    .arbiter ⟨s.rta.connected, s.rta.hoExec, s.rta.lastGranted, ⟨(s.sub .A).missed, (s.sub .B).missed⟩⟩
  else (s.rta.claims[i]?).elim .empty (fun c => .claim ⟨c.owner, c.kind, c.start, c.length, c.origin, c.granted⟩)

/-- Entry `i` of the FALLBACK view (R127). -/
def fallbackEntry (s : State) (i : Nat) : ReadEntry :=
  if i = 0 then
    .fallback ⟨s.ctb.frozen && s.hxu.run.isSome, s.hxu.run, (s.hxu.run.elim 0 (fun r => r.triggers.length)), s.hxu.timing⟩
  else ((s.hxu.run.bind (fun r => r.triggers[i - 1]?))).elim .empty .trigger

/-- The ways of a set in the order in which an allocation walks them (R60, R61): in the pair that the pair bit names the way
that its bit names, then the sibling, then the other pair in the same way. -/
def victims (p : Plru) : List Nat :=
  let low := if p.low then [1, 0] else [0, 1]
  let high := if p.high then [3, 2] else [2, 3]
  if p.pair then high ++ low else low ++ high

/-- The bits of a set after a touch of a way (R60). -/
def touched (w : Nat) (p : Plru) : Plru :=
  { pair := decide (w < 2), low := if w = 0 then true else if w = 1 then false else p.low,
    high := if w = 2 then true else if w = 3 then false else p.high }

/-- Entry `i` is the one that an allocation for `k` takes (R61): the first invalid way of its set, or with none the first in the
order of the walk that holds no pin. -/
def wayTaken (s : State) (k : Key) (i : Nat) : Prop :=
  i / 4 = setOf k ∧
    if (cellAt s i).valid = false then ∀ j < i, j / 4 = setOf k → (cellAt s j).valid = true
    else (∀ j < 64, j / 4 = setOf k → (cellAt s j).valid = true) ∧ (cellAt s i).pinned = false ∧
      ∀ w ∈ (victims (s.ctb.plru.getD (setOf k) ⟨false, false, false⟩)).takeWhile (fun w => w != i % 4),
        (cellAt s (4 * setOf k + w)).pinned = true

/-! ## Frame starts and the ends of claims -/

/-- A saturating counter after `k` increments by one. -/
def counted (n k : Nat) : Nat := if k = 0 then n else min (n + k) 65535

/-- `acc` after 68 has been added (R20). -/
def accNext (acc : Nat) : Nat := if 100 ≤ acc + 68 then acc + 68 - 100 else acc + 68

/-- The drawn length of frame `fn` with the accumulator `acc` before it and drift correction `d` (R20). -/
def lengthOf (fn acc : Nat) (d : Int) : Nat :=
  ((if 100 ≤ acc + 68 then 328 else 327) + (if fn = 0 then d else 0)).toNat

/-- The current frame counted on the sleep clock with a length drawn for it (R20). -/
def drawn (s : State) (f : Ftb) : Ftb :=
  { f with acc := accNext f.acc, counting := .sleep (lengthOf f.fn f.acc (effGlobal s).drift) }

/-- The sleep-counted frame that follows (R19, R20). -/
def sleepFrame (s : State) (f : Ftb) : Ftb := drawn s { f with fn := (f.fn + 1) % 1024, elapsed := 0 }

/-- The frame that a mark carrying `fn` begins, counted from that mark (R28, R30, R32). -/
def markFrom (fn : Nat) (f : Ftb) : Ftb :=
  { f with fn := fn, comparePending := false, watchdog := some 492, counting := .marks, elapsed := 0 }

/-- The messages go out on the FL. -/
def withFl (l : List FlFrame) (s : State) : State := { s with out := { s.out with fl := s.out.fl ++ l } }

/-- The claims span at least one frame and less than an FN cycle (R35), and FN is a frame number. -/
def SpansInCycle (s : State) : Prop := s.ftb.fn < 1024 ∧ ∀ c ∈ s.rta.claims, 1 ≤ c.length ∧ c.length < 1024

/-- The frame `d` after the current one lies within the claim's interval (R22, R37). A REACQUIRE stands from its start on, and one
that has begun from the next frame on. -/
def liesAhead (fn : Nat) (c : Claim) (d : Nat) : Bool :=
  if c.kind = .reacquire then c.begun || decide (fnDist fn c.start ≤ d)
  else decide (fnDist c.start (fnAdd fn d) < c.length) && decide (d + c.length ≤ 1024)

/-- The number of frames between the current one and the next claimed frame (R22); none where there is no next claimed frame. -/
def framesToNext (s : State) : Option Nat :=
  (List.range 1023).find? (fun k => standingSet s || s.rta.claims.any (fun c => liesAhead s.ftb.fn c (k + 1)))

/-- The ticks of the frames before the next claimed one, from FN + 1 on, drawn with accumulator `acc` (R22). -/
def ticksToNext (s : State) (acc : Nat) : Option Nat :=
  (framesToNext s).map (fun k => sumLengths k (fnAdd s.ftb.fn 1) acc (effGlobal s).drift)

/-- The key of the order of R37: covering claims first, the longest begun first, then by distance to the start. -/
def placeKey (fn : Nat) (c : Claim) : Nat := if covers fn c then 1023 - fnDist c.start fn else 1024 + fnDist fn c.start

/-- The state in which the grant decision of a frame start is made (R37, R42, R50). -/
def atDecision (s : State) : State := dropEmptyReplies (spendBudget .B (spendBudget .A (resort (beginReacquires s))))

/-- What follows the decision at the frame start of `old` (log entry 5): renewals put off (R39), the power-down test (R27), the
STORE_READY offers (R154), the text expiry step (R155), the guards (R12, R119), the wake instant (R22). -/
def afterDecision (old s : State) : State :=
  let s := offerAtFrameStart old .B (offerAtFrameStart old .A (powerDownTest (dueRenewals old s)))
  refreshWake (hoGuardStep (guardStep .B (guardStep .A (expiryStep s))))

/-- A page watch of `u` stands in the list at its next occasion (R95). -/
def watchPlaced (u : Sub) (s t : State) : Prop :=
  ∀ v, (s.sub u).serving = some v → ∃ c ∈ t.rta.claims, c.kind = .pageWatch ∧ c.owner = .sub u ∧
    c.start = (s.ftb.fn + ((s.sub u).pagingKey * v.g % v.cycle + 2048 - (s.ftb.fn + 1)) % v.cycle + 1) % 1024

/-- The gap that follows one of `u` that has ended stands in the list (R51), unless another is held still. -/
def gapPlaced (u : Sub) (s t : State) : Prop :=
  ((s.sub u).state = .connected → ∃ c ∈ t.rta.claims, c.kind = .measGap ∧ c.owner = .sub u ∧
    (c.start = (s.ftb.fn + (effParam s u).gapPeriod) % 1024 ∨ c ∈ s.rta.claims)) ∧
  ((s.sub u).state = .camped → (s.sub u).weak = true → ∃ c ∈ t.rta.claims, c.kind = .measGap ∧ c.owner = .sub u ∧
    (c.start = (s.ftb.fn + 32) % 1024 ∨ c ∈ s.rta.claims))

/-- Who owns the next SEARCH claim (R110): COMMON where both subscriptions search, else the one that does. -/
def searchOwner (s : State) : Option Owner :=
  match inSearch s .A, inSearch s .B with
  | true, true => some .common
  | true, false => some (.sub .A)
  | false, true => some (.sub .B)
  | false, false => none

/-- The next SEARCH claim stands in the list, 61 frames ahead, where a subscription searches (R110). -/
def searchPlaced (s t : State) : Prop :=
  ∀ o, searchOwner s = some o → ∃ c ∈ t.rta.claims, c.kind = .search ∧ c.owner = o ∧
    c.start = (s.ftb.fn + 61) % 1024 ∧ 4 ≤ c.length

/-- The other subscription's own search chain, if it has one, starts ahead, so that a COMMON claim of the same start is not late
(R38, R110; log entry 29). -/
def otherAhead (u : Sub) (s : State) : Prop :=
  match (s.pgm.recs.get u.other).chain with
  | some (.own start) => 1 ≤ fnDist s.ftb.fn start ∧ fnDist s.ftb.fn start ≤ 511
  | _ => True

/-- A timed claim has been missed (R46, R47): it has left the list with its kind's effect and count, and what renews it stands
in the list. -/
def missedOf (c : Claim) (s t : State) : Prop :=
  (∀ d ∈ t.rta.claims, d.serial ≠ c.serial) ∧
  (∀ u : Sub, c.kind = .pageWatch → c.owner = .sub u →
    (t.sub u).missed = min ((s.sub u).missed + 1) (effParam s u).starvation ∧
    t.rta.cnt = { s.rta.cnt with watchesMissed := s.rta.cnt.watchesMissed.set u (satInc (s.rta.cnt.watchesMissed.get u)) } ∧
    ((s.sub u).state = .camped → watchPlaced u s t)) ∧
  (c.kind = .delivery → t.rta.cnt = { s.rta.cnt with deliveriesMissed := satInc s.rta.cnt.deliveriesMissed }) ∧
  (c.kind = .reply → t.rta.cnt = { s.rta.cnt with repliesMissed := satInc s.rta.cnt.repliesMissed } ∧ t.scs = s.scs) ∧
  (∀ u : Sub, c.kind = .measGap → c.owner = .sub u →
    t.rta.cnt = { s.rta.cnt with gapsMissed := satInc s.rta.cnt.gapsMissed } ∧ gapPlaced u s t) ∧
  (c.kind = .search → t.rta.cnt = { s.rta.cnt with searchesMissed := satInc s.rta.cnt.searchesMissed } ∧ searchPlaced s t) ∧
  (∀ u : Sub, c.kind = .reacquire → c.owner = .sub u →
    ((s.sub u).state ≠ .search ∨ otherAhead u s → t.rta.cnt = s.rta.cnt) ∧
    ((s.sub u).state = .search → (t.sub u).candidate = none ∧ (t.pgm.recs.get u).chain.isSome = true ∧
      ((s.pgm.recs.get u).chain = none → searchStarted u s t)) ∧
    ((s.sub u).state = .camped → (s.sub u).reselecting = true → ∀ k, (s.sub u).candidate = some k →
      (t.sub u).reselecting = false ∧ (t.sub u).candidate = none ∧ t.pgm.cnt.reselFailed = satInc s.pgm.cnt.reselFailed ∧
      (postable s .reselectFailed → queued s t .reselectFailed (some u) 2 k.channel)))

/-- The kinds of claim that end when the GRANT of frame `fn` is sent (R44): one of one frame at once, a DELIVERY or SEARCH at its
final frame. -/
def endsGranted (fn : Nat) (c : Claim) : Bool :=
  match c.kind with
  | .pageWatch => true
  | .reply => true
  | .measGap => true
  | .delivery => fnDist c.start fn + 1 == c.length
  | .search => fnDist c.start fn + 1 == c.length
  | .reacquire => false
  | .handoverExec => false
  | .connected => false

/-- The counters of missed claims (R46, R55). -/
def missedCounts (s : State) : Two Nat × Nat × Nat × Nat × Nat :=
  (s.rta.cnt.watchesMissed, s.rta.cnt.deliveriesMissed, s.rta.cnt.repliesMissed, s.rta.cnt.gapsMissed,
    s.rta.cnt.searchesMissed)

/-- The next-to-play of a phase. -/
def Phase.next : Phase → Option Nat
  | .armed => none
  | .prefill n => some n
  | .playing n => some n

/-- The playout buffer (R160, R163): its depth is 2, 4 or 8 and bounds it; ARMED holds no frame and PREFILL fewer than half the
depth; the sequences are octets, distinct, in the order of their distance from next-to-play, and none is late. -/
def PlayoutInv (s : State) : Prop :=
  s.tab.global.val.depth ∈ [2, 4, 8] ∧
    ∀ p, s.vpb.play = some p →
      p.depth ∈ [2, 4, 8] ∧ p.buffer.length ≤ p.depth ∧ (p.buffer.map (fun f => f.seq)).Nodup ∧ p.upSeq < 256 ∧
        (∀ f ∈ p.buffer, f.seq < 256) ∧
        (∀ n, p.phase.next = some n → n < 256 ∧ (∀ f ∈ p.buffer, seqDist f.seq n < 128) ∧
          p.buffer.Pairwise (fun f g => seqDist f.seq n < seqDist g.seq n)) ∧
        (p.phase = .armed → p.buffer = []) ∧ ∀ n, p.phase = .prefill n → p.buffer.length < p.depth / 2

/-- The Text Store (R145, R146): the ready list names each READY group once and nothing else; no two groups hold one key; every
stored segment belongs to a group. -/
def TextInv (s : State) : Prop :=
  s.txs.slots.length = 48 ∧ s.txs.groups.length = 12 ∧ s.txs.ready.Nodup ∧
    (∀ i : Nat, i ∈ s.txs.ready ↔ ∃ g, groupAt s i = some g ∧ isOpen g = false) ∧
    (∀ (i j : Nat) (g h : Group), groupAt s i = some g → groupAt s j = some h → g.hasKey h.sub h.sender h.reference = true →
      i = j) ∧
    ∀ x, some x ∈ s.txs.slots → ∃ (i : Nat) (g : Group), groupAt s i = some g ∧ g.owns x = true

end Sys2Proof.Machine
end

