-- ==== Sys2Proof/Certificates/Slice0/Obligations.lean ====
section
/-! DEFINITION. The statements for the provers, in the order of OBLIGATIONS.json. `exec c s = .next (pump x)` says the
whole next state: `x` is written out, and `pump` is the transmitter's choice of its next frame (R175), which the statement
TransmissionCompletes describes. -/

open Sys2Proof Sys2Proof.Machine

/-- For every state s whose queue holds a command c in front of a list l, step s is exec c on s with the queue l. The
queue of waiting commands is the model's own; the spec takes frames and requests one after the other (3.4, 11.2). -/
def Obligations.StepRunsFrontCommand : Prop :=
  ∀ (s : State) (c : Instr) (l : List Instr), s.pending = c :: l → step s = exec c { s with pending := l }

/-- While no command waits, no damage notice waits, and the tick reaches neither the end of a sleep-counted frame, nor
the wake instant, nor the end of the watchdog, a step adds one to the ticks elapsed in the frame and takes one from a
running watchdog; then the transmitter makes its choice. That an empty queue lets one tick pass is the model's choice
(log entry 1). -/
def Obligations.IdleTickCountsOnTheSleepClock : Prop :=
  ∀ (s : State) (len : Nat), s.pending = [] → s.hxu.notice = false → s.ftb.counting = .sleep len →
    s.ftb.elapsed + 1 < len → (∀ w, s.ftb.wake = some w → s.ftb.elapsed + 1 < w) →
    (∀ n, s.ftb.watchdog = some n → 1 < n) →
    step s = .next (pump { s with ftb :=
      { s.ftb with elapsed := s.ftb.elapsed + 1, watchdog := s.ftb.watchdog.map (fun n => n - 1) } })

/-- For every command c and state s, exec c s answers a next state, and that state's queue of waiting commands is the
one of s. The spec gives the block no stop: failures are events, marks and statuses. -/
def Obligations.EveryCommandCompletes : Prop :=
  ∀ (c : Instr) (s : State), ∃ t, exec c s = .next t ∧ t.pending = s.pending

/-- After POWER_ON_RESET every block holds its value of the state after reset, and the AL link is UP exactly if
LINK_READY is asserted: then WAKE_REQ is deasserted and the START record is in transmission, else WAKE_REQ is
asserted. The queue of waiting commands is kept. The content of an invalid cell entry and the outputs' history are the
model's own (log entries 6, 7). -/
def Obligations.PowerOnResetEffect : Prop :=
  (∀ (s : State), ∃ t, exec .powerOnReset s = .next t ∧ t.ftb = State.reset.ftb ∧
        t.rta = State.reset.rta ∧
        t.scs = State.reset.scs ∧
        t.tab = State.reset.tab ∧
        t.ctb = State.reset.ctb ∧
        t.mfu = State.reset.mfu ∧
        t.pgm = State.reset.pgm ∧
        t.hxu = State.reset.hxu ∧
        t.brt = State.reset.brt ∧
        t.txs = State.reset.txs ∧
        t.vpb = State.reset.vpb ∧
        t.tmc = State.reset.tmc ∧
        t.out = State.reset.out ∧
        t.pending = s.pending ∧
        t.alc.linkReady = s.alc.linkReady ∧
        t.alc.up = s.alc.linkReady ∧
        t.alc.wakeReq = !s.alc.linkReady ∧
        t.alc.events = [startRecord] ∧
        t.alc.responses = [] ∧
        t.alc.forwarded = [] ∧
        t.alc.cursor = (.global, 0) ∧
        t.alc.cnt = {} ∧
        t.alc.tx = (if s.alc.linkReady then some ⟨.event startRecord, false⟩ else none))

/-- After power-on reset: FN 0, accumulator 0, a frame of 327 ticks, the front end OFF with POWER(OFF) sent, no held
GRANT, comparison, watchdog or wake instant; no claims, standing claims or last-granted owner; both subscriptions
DETACHED with K 0, marks clear, STORE_OK and count 0; PARAM at the defaults of R4, GLOBAL at 164, 0, 4, REALTIME;
identities invalid, screening clear, every bearer IDLE, the default event classes, no damaged entry; no valid cell,
pseudo-LRU bits 0, not frozen; no search chain, page record or target; empty queues, stores and playout, no pending or
bound uplink frame, no occupancy sample, the loss-announced mark clear; the event queue holding one START, the read
cursor at GLOBAL 0; every counter of every block 0. K is 0 since no identity is valid. -/
def Obligations.ResetValues : Prop :=
  State.reset.ftb.fn = 0 ∧ State.reset.ftb.acc = 0 ∧ State.reset.ftb.counting = .sleep 327 ∧ State.reset.ftb.elapsed = 0 ∧
    State.reset.ftb.power = .off ∧ State.reset.out.fl = [.power false] ∧ State.reset.ftb.held = none ∧
    State.reset.ftb.comparePending = false ∧ State.reset.ftb.watchdog = none ∧ State.reset.ftb.wake = none ∧
    State.reset.rta.claims = [] ∧ State.reset.rta.connected = ⟨false, false⟩ ∧ State.reset.rta.hoExec = none ∧
    State.reset.rta.lastGranted = none ∧
    (∀ u : Sub, (State.reset.sub u).state = .detached ∧ (State.reset.sub u).serving = none ∧
      (State.reset.sub u).pagingKey = 0 ∧ (State.reset.sub u).weak = false ∧ (State.reset.sub u).reselecting = false ∧
      (State.reset.sub u).candidate = none ∧ (State.reset.sub u).guard = none ∧ (State.reset.sub u).notice = .storeOk ∧
      (State.reset.sub u).missed = 0 ∧ State.reset.tab.param.get u = .fresh Param.default ∧
      State.reset.brt.queues.get u = [] ∧ State.reset.hxu.timing.get u = none) ∧
    Param.default = { kIdle := 2, kConn := 3, hysteresis := 8, weakDeclare := -110, clearGap := 4, reselCount := 4,
                      hoMargin := 6, timeToTrigger := 3, staleLimit := 5, starvation := 3, penalty := 8, prefCycle := 0,
                      gapPeriod := 48, connectGuard := 200, reassembly := 47, screenLen := 256, areaCode := 0,
                      discovery := true, protectCall := false, acceptLoop := false } ∧
    State.reset.tab.global = .fresh { lead := 164, drift := 0, depth := 4, mode := .realtime } ∧
    (∀ e ∈ State.reset.tab.identity, e = .fresh { kind := .temporary, digits := [], number := 0, valid := false }) ∧
    (∀ e ∈ State.reset.tab.screen, e = .fresh 0#16) ∧
    (∀ e ∈ State.reset.tab.bearer, e.val.state = .idle ∧ e.damaged = false) ∧
    State.reset.tab.eventClass.map (fun e => e.val) =
      List.replicate 9 .urgent ++ List.replicate 13 .routine ++ List.replicate 10 .suppressed ∧
    (∀ e ∈ State.reset.tab.eventClass, e.damaged = false) ∧
    (∀ c ∈ State.reset.ctb.cells, c.valid = false) ∧ (∀ p ∈ State.reset.ctb.plru, p = ⟨false, false, false⟩) ∧
    State.reset.ctb.frozen = false ∧ State.reset.pgm.target = none ∧ State.reset.hxu.run = none ∧
    State.reset.txs.slots = List.replicate 48 none ∧ State.reset.txs.groups = List.replicate 12 none ∧
    State.reset.txs.ready = [] ∧ State.reset.vpb.play = none ∧ State.reset.vpb.codecLoop = false ∧
    State.reset.vpb.radioLoop = none ∧ State.reset.alc.events = [startRecord] ∧ State.reset.alc.up = false ∧
    State.reset.alc.wakeReq = true ∧ State.reset.alc.responses = [] ∧ State.reset.alc.forwarded = [] ∧
    State.reset.alc.tx = none ∧ State.reset.alc.cursor = (.global, 0) ∧ State.reset.pgm.searchDue = false ∧
    (∀ u : Sub, State.reset.pgm.recs.get u = 
      { readOccasion := none, window := none, announced := none, chain := none, watchDue := false, gapDue := false }) ∧
    State.reset.hxu.notice = false ∧ State.reset.brt.lossAnnounced = false ∧ State.reset.vpb.pendingUp = none ∧
    State.reset.vpb.bound = none ∧ State.reset.vpb.occ = { recent := [], count := 0, low := none, high := none } ∧
    State.reset.ftb.cnt = 
      { strays := 0, slips := 0, discontinuities := 0 } ∧
    State.reset.rta.cnt = 
      { watchesMissed := ⟨0, 0⟩, deliveriesMissed := 0, deliveryFramesLost := 0, repliesMissed := 0,
        itemsRefused := 0, gapsMissed := 0, searchesMissed := 0, connectedLost := 0, displaced := 0,
        late := 0, jumped := 0, tuneAways := 0 } ∧ State.reset.ctb.cnt = 
      { allocations := 0, replacements := 0, listedReplacements := 0, refused := 0, staleInvalidations := 0,
        filterRestarts := 0, rebuilds := 0 } ∧ State.reset.mfu = 
      { taken := 0, discarded := 0, cellsIgnored := 0, malformedCells := 0, duplicateCells := 0,
        discoveryDrops := 0, offers := 0, resultsBuilt := 0, resultsLost := 0 } ∧
    State.reset.pgm.cnt = 
      { pagesTaken := 0, pagesDiscarded := 0, itemsIgnored := 0, malformedItems := 0, itemsUnmatched := 0,
        itemsUnplaced := 0, summariesMalformed := 0, summariesUnmatched := 0, resultsDiscarded := 0,
        reselStarted := 0, reselSucceeded := 0, reselFailed := 0 } ∧ State.reset.hxu.cnt = 
      { ignored := 0, accepted := 0, commits := 0, restores := 0, abandonments := 0, syncsUnused := 0 } ∧
        State.reset.brt.cnt = 
      { downDiscards := 0, rawRouted := 0, alDownLosses := 0, upDiscards := 0, queueFull := ⟨0, 0⟩,
        tailDisplacements := 0, flushed := 0, sent := ⟨0, 0⟩ } ∧
    State.reset.txs.cnt = 
      { discarded := 0, malformed := 0, screened := 0, mismatches := 0, duplicates := 0, late := 0,
        storeFull := 0, stored := 0, completed := 0, expired := 0, taken := 0, groupsDiscarded := 0,
        answersLost := 0 } ∧ State.reset.vpb.cnt = 
      { played := 0, concealed := 0, silent := 0, late := 0, duplicate := 0, overflow := 0,
        droppedAtEnd := 0, loopDiscards := 0, upSent := 0, upDiscarded := 0, ordersRefused := 0 } ∧ State.reset.alc.cnt = 
      { rxDown := 0, checkErrors := 0, malformedFrames := 0, malformedRequests := 0, responsesLost := 0,
        forwardedLost := 0, eventsSent := 0, eventsSuppressed := 0, eventsDropped := 0,
        eventsDisplaced := 0, injections := 0 } ∧
    State.reset.tmc = { correctable := List.replicate 7 0, uncorrectable := List.replicate 7 0, lastFail := none }

/-- The state after reset meets the invariants that the other statements say every step keeps. -/
def Obligations.ResetMeetsInvariants : Prop :=
  WakeInv State.reset ∧ TransmitInv State.reset ∧ FrameInv State.reset ∧ RangesInv State.reset ∧ SizesInv State.reset ∧
    BoundsInv State.reset ∧ ClaimsInv State.reset ∧ HandoverInv State.reset ∧ LinkInv State.reset ∧ CoreInv State.reset ∧
    PlayoutInv State.reset ∧ TextInv State.reset

/-- From every state in which WAKE_REQ is asserted exactly while the AL is DOWN and the event queue holds an urgent
record, every step leads to such a state. And while the AL stays DOWN, an urgent record stays in the queue through
every step but a power-on reset (a state of which the transmitter's invariant holds being assumed). -/
def Obligations.WakeReqFollowsUrgentEvents : Prop :=
  (∀ (s t : State), WakeInv s → step s = .next t → WakeInv t) ∧
    ∀ (s t : State), TransmitInv s → s.alc.up = false → s.pending.head? ≠ some .powerOnReset → step s = .next t →
      t.alc.up = false → ∀ e ∈ s.alc.events, e.cls = .urgent → e ∈ t.alc.events

/-- Every step keeps: the link is UP exactly while LINK_READY is asserted; DOWN, nothing is in transmission and no
response or forwarded frame waits; a record in transmission is the head of the event queue; UP, the transmitter is not
free while something waits to be sent. That the transmitter makes its choice at the end of each command is the model's
reading of a free transmitter (log entry 15). -/
def Obligations.TransmitterFollowsTheLink : Prop :=
  ∀ (s t : State), TransmitInv s → step s = .next t → TransmitInv t

/-- Every step keeps: FN in 0..1023 and r in 0..99; PARAM and GLOBAL within their ranges, the missed-occasion count at
most S, the guards in 1..500 and 1..100, the TMC's counters at most 15; the table and store sizes; and at most 16
claims, 16 frames in each uplink queue, 16 responses, 32 forwarded frames and 32 event records. -/
def Obligations.RangesAndCapacitiesKept : Prop :=
  (∀ (s t : State), FrameInv s → step s = .next t → FrameInv t) ∧
    (∀ (s t : State), RangesInv s → step s = .next t → RangesInv t) ∧
    (∀ (s t : State), SizesInv s → step s = .next t → SizesInv t) ∧
    ∀ (s t : State), BoundsInv s → step s = .next t → BoundsInv t

/-- Every step keeps: at most 16 claims of the timed kinds, no two with the same owner, kind and start, no REPLY of
more than four items, COMMON owning searches only; the insertion numbers, which are the model's own (log entry 13),
are distinct and below the next one. -/
def Obligations.ClaimsListKept : Prop :=
  ∀ (s t : State), ClaimsInv s → step s = .next t → ClaimsInv t

/-- Every step keeps: a subscription is in HANDOVER exactly while the fallback frame and execution record are its,
HANDOVER_EXEC is set for exactly that subscription, and the Cell Table is frozen exactly while they are occupied. -/
def Obligations.HandoverStandsTogether : Prop :=
  ∀ (s t : State), HandoverInv s → step s = .next t → HandoverInv t

/-- From states that also meet the handover invariant, every step keeps: at most one subscription is in CONNECTING,
CONNECTED or HANDOVER, the CONNECTED standing claim is set for exactly that one, and only it can be the loop
subscription of a closed RADIO_LOOP. -/
def Obligations.OneLinkAtATime : Prop :=
  ∀ (s t : State), LinkInv s → HandoverInv s → step s = .next t → LinkInv t

/-- Every step keeps, together with the sizes, the presence of the optional record fields, the handover and the link
invariants: every valid cell is held once and in its own set; an entry pinned SERVING for a subscription holds its
serving cell key, and each served subscription has such an entry; HO_TARGET stands on the target of the running
handover. -/
def Obligations.ServingCellStaysPinned : Prop :=
  ∀ (s t : State), CoreInv s → step s = .next t → CoreInv t

/-- Every step keeps: the selected depth is 2, 4 or 8 and bounds the buffer; ARMED holds no frame and PREFILL fewer
than half the depth; the sequences held are octets, distinct, at a distance of 0 to 127 from next-to-play, and stand
in the order of that distance. -/
def Obligations.PlayoutBufferKept : Prop :=
  ∀ (s t : State), PlayoutInv s → step s = .next t → PlayoutInv t

/-- Every step keeps: 48 slots and 12 records; the ready list names every READY group exactly once and nothing else;
no two groups hold one key; every stored segment belongs to a group. -/
def Obligations.TextStoreKept : Prop :=
  ∀ (s t : State), TextInv s → step s = .next t → TextInv t

/-- A command that is neither POWER_ON_RESET nor one that makes a frame start (a sleep-counted boundary, a FRAME_MARK,
the watchdog's expiry, a failed warm-up) leaves FN as it is. -/
def Obligations.FrameNumberMovesAtFrameStarts : Prop :=
  ∀ (c : Instr) (s t : State), exec c s = .next t → startsFrame c = false → c ≠ .powerOnReset → t.ftb.fn = s.ftb.fn

/-- For every command c that is neither POWER_ON_RESET nor the TABLE_WRITE of IDENTITY (of SCREEN), the content of
every IDENTITY entry (SCREEN word) is unchanged, and an entry marked damaged stays marked. This covers warm reset and
detach. -/
def Obligations.IdentityAndScreenKept : Prop :=
  ∀ (c : Instr) (s t : State), exec c s = .next t → c ≠ .powerOnReset →
    ((∀ tag first l, c ≠ .tableWriteIdentity tag first l) → ∀ i : Nat, (identityAt t i).val = (identityAt s i).val ∧
      ((identityAt s i).damaged = true → (identityAt t i).damaged = true)) ∧
    ((∀ tag first l, c ≠ .tableWriteScreen tag first l) → ∀ i : Nat, (screenAt t i).val = (screenAt s i).val ∧
      ((screenAt s i).damaged = true → (screenAt t i).damaged = true))

/-- For every command that is a frame arriving on the AL, while the link is DOWN the received-while-down counter is
incremented and nothing else changes. -/
def Obligations.LinkDownDiscardsFrames : Prop :=
  ∀ (c : Instr) (s : State), fromAl c = true → s.alc.up = false →
    exec c s = .next { s with alc := { s.alc with cnt := { s.alc.cnt with rxDown := satInc s.alc.cnt.rxDown } } }

/-- From a state that meets the handover invariant, for every command and subscription, the subscription's state after
the command is the one before, or the command names that subscription or none and the move is one that the table of
1.6 gives for that command (the connect guard and the handover guard may also run out at a frame start). -/
def Obligations.SubscriptionStatesMove : Prop :=
  ∀ (c : Instr) (s t : State) (u : Sub), HandoverInv s → exec c s = .next t →
    (t.sub u).state = (s.sub u).state ∨ concerns c u = true ∧ mayMove c (s.sub u).state (t.sub u).state = true

/-- LINK_READY_CHANGE sets the pin and the link state. DOWN to UP: the loss-announced mark is cleared, WAKE_REQ
deasserted, nothing queued is lost. UP to DOWN: the frame in transmission is abandoned and counted nowhere, which is
the model's reading (log entry 18), the waiting responses are discarded and counted, each waiting forwarded frame
counts as lost, with the loss announced if any was lost, no urgent record leaves the queue, and WAKE_REQ is asserted
if an urgent record is queued. A level equal to the present one changes the pin only. -/
def Obligations.LinkReadyChangeEffect : Prop :=
  (∀ (b : Bool) (s : State), ∃ t, exec (.linkReadyChange b) s = .next t ∧ t.alc.linkReady = b ∧
        t.alc.up = b ∧
        onlyChanges [.alc, .brt, .eventClass, .tmc] s t) ∧
  (∀ (s : State), s.alc.up = false →
      ∃ t, exec (.linkReadyChange true) s = .next t ∧ t.brt = { s.brt with lossAnnounced := false } ∧
        t.alc.wakeReq = false ∧
        t.alc.events = s.alc.events ∧
        t.alc.cnt = s.alc.cnt ∧
        responseTrail t.alc = responseTrail s.alc ∧
        forwardTrail t.alc = forwardTrail s.alc) ∧
  (∀ (s : State), s.alc.up = true →
      ∃ t, exec (.linkReadyChange false) s = .next t ∧ t.alc.tx = none ∧
        t.alc.responses = [] ∧
        t.alc.forwarded = [] ∧
        t.alc.cnt.responsesLost = satAdd s.alc.cnt.responsesLost s.alc.responses.length ∧
        (∀ e ∈ s.alc.events, e.cls = .urgent → e ∈ t.alc.events) ∧
        (t.alc.wakeReq = true ↔ ∃ e ∈ t.alc.events, e.cls = .urgent) ∧
        (s.alc.forwarded = [] → t.brt = s.brt ∧ t.alc.events = s.alc.events) ∧
        (s.alc.forwarded ≠ [] → t.brt.lossAnnounced = true ∧ t.brt.cnt.alDownLosses = satAdd s.brt.cnt.alDownLosses
          s.alc.forwarded.length)) ∧
  (∀ (b : Bool) (s : State), s.alc.up = b →
      exec (.linkReadyChange b) s = .next (pump { s with alc := { s.alc with linkReady := b } }))

/-- SLEEP_BOUNDARY, while the current frame is sleep-counted, starts frame FN + 1 (mod 1024): 68 is added to r, 100
taken away from 100 on, and the frame counts 328 ticks if 100 was taken away, else 327, the effective drift correction
being added if it is FN 0 (GLOBAL read clean or marked damaged). While frames are counted on marks it changes nothing,
which is the model's choice (log entry 3). In a frame that no warm-up fails and no watchdog ends, the next state is
that frame's start (log entry 5): the REACQUIRE claims that start now begin, the list stands in its order, empty
REPLYs leave, a spent budget ends as REACQUIRE_BUDGET_SPENT ends it; the grant decision is made
(GrantGoesToTheWinner); then the rest of the frame start, of which the renewals, offers and expiries stand in
FrontEndFaults and the guards in FrameMarkAdoption. The power-down test, applied unless OFF, comparing or holding a
GRANT, powers down where no standing claim is set and the ticks to the next claimed frame exceed L or there is none; a
frame counted on marks is then drawn from its mark (before frame FN + 1: log entry 16; D is added to one reached by
adoption: log entry 60). The wake instant lies L ticks before the next claimed frame; one not after the current tick
sends POWER(ON). -/
def Obligations.SleepCountedBoundary : Prop :=
  (∀ (len : Nat) (s : State), s.ftb.counting = .sleep len →
      s.tab.global.sound = true →
      ∃ t, exec .sleepBoundary s = .next t ∧ t.ftb.fn = (s.ftb.fn + 1) % 1024 ∧
        t.ftb.elapsed = 0 ∧
        t.ftb.acc = accNext s.ftb.acc ∧
        t.ftb.counting = .sleep (lengthOf ((s.ftb.fn + 1) % 1024) s.ftb.acc (effGlobal s).drift) ∧
        onlyChanges [.fn, .ftb, .rta, .subA, .subB, .global, .param, .bearer, .eventClass, .ctb, .pgm, .hxu, .brt, .txs,
          .vpb, .alc, .tmc, .fl] s t) ∧
  (∀ (s : State), s.ftb.counting = .marks →
      exec .sleepBoundary s = .next (pump s)) ∧
  (∀ (len : Nat) (x : State) (s : State), s.ftb.counting = .sleep len →
      Clean s →
      (s.ftb.power = .warming → s.ftb.held = none) →
      (s.ftb.power = .off → ∀ w, s.ftb.wake = some w → len ≤ w) →
      (∀ n, s.ftb.watchdog = some n → len - s.ftb.elapsed < n) →
      x = { s with ftb := { sleepFrame s s.ftb with watchdog := s.ftb.watchdog.map (fun n => n - (len - s.ftb.elapsed)) } }
        →
      exec .sleepBoundary s = .next (pump (afterDecision x (grantDecision (atDecision x))))) ∧
  (∀ (len : Nat) (w : Nat) (x : State) (s : State), s.ftb.counting = .sleep len →
      Clean s →
      s.ftb.power = .off →
      s.ftb.wake = some w →
      w < len →
      (∀ n, s.ftb.watchdog = some n → len - s.ftb.elapsed < n) →
      x = withFl [.power true]
        { s with ftb := { sleepFrame s s.ftb with watchdog := s.ftb.watchdog.map (fun n => n - (len - s.ftb.elapsed)), power := .warming, wake := none } }
        →
      exec .sleepBoundary s = .next (pump (afterDecision x (grantDecision (atDecision x))))) ∧
  (∀ (s : State), ClaimsInv s → (∀ c ∈ s.rta.claims, c.kind = .reacquire → c.granted < 32) →
    (∀ c, c ∈ (atDecision s).rta.claims ↔ ¬(c.kind = .reply ∧ c.items = [] ∧ covers s.ftb.fn c = true) ∧
      ∃ d ∈ s.rta.claims, c = (if d.kind = .reacquire ∧ d.start = s.ftb.fn then { d with begun := true } else d)) ∧
    (atDecision s).rta.claims.Pairwise (fun c d => placeKey s.ftb.fn c < placeKey s.ftb.fn d ∨
      placeKey s.ftb.fn c = placeKey s.ftb.fn d ∧ c.serial < d.serial) ∧
    onlyChanges [.rta, .pgm] s (atDecision s)) ∧
  (∀ (s : State) (u : Sub), (∃ c ∈ s.rta.claims, c.kind = .reacquire ∧ c.owner = .sub u ∧ 32 ≤ c.granted) →
    exec (.reacquireBudgetSpent u) s = .next (pump (refreshWake (spendBudget u s)))) ∧
  (∀ (n fn acc : Nat) (d : Int), sumLengths 0 fn acc d = 0 ∧
    sumLengths (n + 1) fn acc d = lengthOf fn acc d + sumLengths n ((fn + 1) % 1024) (accNext acc) d) ∧
  (∀ (s : State) (len : Nat), s.tab.global.sound = true → SpansInCycle s → s.ftb.power = .off → s.ftb.counting = .sleep
    len →
    (ticksToNext s s.ftb.acc = none → refreshWake s = { s with ftb := { s.ftb with wake := none } }) ∧
    ∀ n, ticksToNext s s.ftb.acc = some n →
      ((effGlobal s).lead + s.ftb.elapsed < len + n →
        refreshWake s = { s with ftb := { s.ftb with wake := some (len + n - (effGlobal s).lead) } }) ∧
      (len + n ≤ (effGlobal s).lead + s.ftb.elapsed →
        refreshWake s = withFl [.power true] { s with ftb := { s.ftb with power := .warming, wake := none } })) ∧
  (∀ (s : State), s.tab.global.sound = true → s.ftb.power ≠ .off →
    refreshWake s = { s with ftb := { s.ftb with wake := none } }) ∧
  (∀ (s : State) (a : Nat), s.tab.global.sound = true → SpansInCycle s →
    a = (if s.ftb.counting = .marks then accNext s.ftb.acc else s.ftb.acc) →
    (s.ftb.power = .off ∨ s.ftb.power = .on ∧ s.ftb.comparePending = true ∨ s.ftb.power = .warming ∧ s.ftb.held ≠ none ∨
      ¬(standingSet s = false ∧ ∀ n, ticksToNext s a = some n → (effGlobal s).lead < n) →
      powerDownTest s = s) ∧
    (s.ftb.power = .on → s.ftb.comparePending = false → (standingSet s = false ∧ ∀ n, ticksToNext s a = some n →
      (effGlobal s).lead < n) → powerDownTest s = refreshWake (withFl [.power false]
      { s with ftb := { (if s.ftb.counting = .marks then drawn s s.ftb else s.ftb) with power := .off, watchdog := none } }))
        ∧
    (s.ftb.power = .warming → s.ftb.held = none → (standingSet s = false ∧ ∀ n, ticksToNext s a = some n → (effGlobal
      s).lead < n) → powerDownTest s = refreshWake (withFl [.power false]
      { s with ftb := { s.ftb with power := .off } })))

/-- A FRAME_MARK taken while OFF or WARMING only counts a stray indication. Taken while ON it ends a pending
comparison and FN becomes the carried number; where that differs from the expected one (the current FN for the first
mark before the middle of a sleep-counted frame, else FN + 1) a slip is counted at the first mark and a discontinuity
at a later one, and otherwise neither. If the front end is still ON after it, frames are counted on marks from this
one and the watchdog runs for 492 ticks. A mark that confirms the current FN makes no frame start; any other makes
that of the carried FN with its decision, as SleepCountedBoundary says, after FN_SLIP is posted at a slip and, for a
carried FN ahead of the expected one, the claims are gone through: a timed claim whose final frame was jumped over is
missed and counted as jumped, one that ends later stays, and a REACQUIRE whose start was jumped over has begun. At a
frame start a guard above its last step loses one, and one at its last step ends as CONNECT_GUARD_EXPIRY or
HANDOVER_GUARD_EXPIRY ends it. -/
def Obligations.FrameMarkAdoption : Prop :=
  (∀ (fn : Nat) (s : State), s.ftb.power ≠ .on →
      exec (.frameMark fn) s = .next (pump
        { s with ftb := { s.ftb with cnt := { s.ftb.cnt with strays := satInc s.ftb.cnt.strays } } })) ∧
  (∀ (fn : Nat) (e : Nat) (s : State), s.ftb.power = .on →
      fn < 1024 →
      s.ftb.fn < 1024 →
      e = (if s.ftb.comparePending = true ∧ beforeMiddle s.ftb = true then s.ftb.fn else (s.ftb.fn + 1) % 1024) →
      ∃ t, exec (.frameMark fn) s = .next t ∧ t.ftb.fn = fn ∧
        t.ftb.comparePending = false ∧
        t.ftb.cnt.strays = s.ftb.cnt.strays ∧
        t.ftb.cnt.slips = (if s.ftb.comparePending = true ∧ fn ≠ e then satInc s.ftb.cnt.slips else s.ftb.cnt.slips) ∧
        t.ftb.cnt.discontinuities = (if s.ftb.comparePending = false ∧ fn ≠ e then satInc s.ftb.cnt.discontinuities else
          s.ftb.cnt.discontinuities) ∧
        (t.ftb.power = .on → t.ftb.counting = .marks ∧ t.ftb.watchdog = some 492 ∧ t.ftb.elapsed = 0) ∧
        onlyChanges [.fn, .ftb, .rta, .subA, .subB, .global, .param, .bearer, .eventClass, .ctb, .pgm, .hxu, .brt, .txs,
          .vpb, .alc, .tmc, .fl] s t) ∧
  (∀ (fn : Nat) (len : Nat) (s : State), s.ftb.power = .on →
      s.ftb.comparePending = true →
      s.ftb.counting = .sleep len →
      s.ftb.elapsed < len / 2 →
      s.ftb.fn < 1024 →
      fn = s.ftb.fn →
      exec (.frameMark fn) s = .next (pump
        { s with ftb := { s.ftb with comparePending := false, watchdog := some 492, counting := .marks, elapsed := 0 } }))
        ∧
  (∀ (fn : Nat) (e : Nat) (y : State) (x : State) (s : State), s.ftb.power = .on →
      Clean s →
      fn < 1024 →
      s.ftb.fn < 1024 →
      e = (if s.ftb.comparePending = true ∧ beforeMiddle s.ftb = true then s.ftb.fn else (s.ftb.fn + 1) % 1024) →
      ¬(fn = e ∧ e = s.ftb.fn) →
      y = (if fn = e then { s with ftb := markFrom fn s.ftb } else if s.ftb.comparePending = true then
          post .fnSlip none (if (fn + 1024 - e) % 1024 ≤ 511 then (((fn + 1024 - e) % 1024 : Nat) : Int) else
            (((fn + 1024 - e) % 1024 : Nat) : Int) - 1024) e
            { s with ftb := { markFrom fn s.ftb with cnt := { s.ftb.cnt with slips := satInc s.ftb.cnt.slips } } }
        else { s with ftb := { markFrom fn s.ftb with
          cnt := { s.ftb.cnt with discontinuities := satInc s.ftb.cnt.discontinuities } } }) →
      x = (if 1 ≤ (fn + 1024 - e) % 1024 ∧ (fn + 1024 - e) % 1024 ≤ 511 then jumpClaims s.ftb.fn fn y else y) →
      exec (.frameMark fn) s = .next (pump (afterDecision x (grantDecision (atDecision x))))) ∧
  (∀ (s t : State) (old : Nat), Settled s → SpansInCycle s → t = jumpClaims old s.ftb.fn s →
    (∀ c ∈ s.rta.claims, c.kind ≠ .reacquire →
      ((1 ≤ fnDist old ((c.start + c.length - 1) % 1024) ∧ fnDist old ((c.start + c.length - 1) % 1024) < fnDist old
        s.ftb.fn) → ∀ d ∈ t.rta.claims, d.serial ≠ c.serial) ∧ (¬(1 ≤ fnDist old ((c.start + c.length - 1) % 1024) ∧
        fnDist old ((c.start + c.length - 1) % 1024) < fnDist old s.ftb.fn) → c ∈ t.rta.claims)) ∧
    (∀ c ∈ s.rta.claims, c.kind = .reacquire → (if 1 ≤ fnDist old c.start ∧ fnDist old c.start < fnDist old s.ftb.fn then
      { c with begun := true } else c) ∈ t.rta.claims) ∧
    t.rta.cnt.jumped = counted s.rta.cnt.jumped (s.rta.claims.countP (fun c => decide (c.kind ≠ .reacquire ∧ (1 ≤ fnDist
      old ((c.start + c.length - 1) % 1024) ∧ fnDist old ((c.start + c.length - 1) % 1024) < fnDist old s.ftb.fn)))) ∧
    t.rta.cnt.repliesMissed = counted s.rta.cnt.repliesMissed
      (s.rta.claims.countP (fun c => decide (c.kind = .reply ∧ (1 ≤ fnDist old ((c.start + c.length - 1) % 1024) ∧
        fnDist old ((c.start + c.length - 1) % 1024) < fnDist old s.ftb.fn)))) ∧
    t.rta.cnt.connectedLost = s.rta.cnt.connectedLost) ∧
  (∀ (s : State) (u : Sub), ((s.sub u).state ≠ .connecting ∨ (s.sub u).guard = none → guardStep u s = s) ∧
    ∀ n, (s.sub u).state = .connecting → (s.sub u).guard = some n →
      (1 < n → guardStep u s = { s with scs := s.scs.set u { s.sub u with guard := some (n - 1) } }) ∧
      (n ≤ 1 → exec (.connectGuardExpiry u) s = .next (pump (guardStep u s)))) ∧
  (∀ (s : State), (s.hxu.run = none → hoGuardStep s = s) ∧ ∀ r, s.hxu.run = some r →
    (1 < r.guard → hoGuardStep s = { s with hxu := { s.hxu with run := some { r with guard := r.guard - 1 } } }) ∧
    (r.guard ≤ 1 → exec .handoverGuardExpiry s = .next (pump (hoGuardStep s))))

/-- READY taken while WARMING makes the state ON, sends a held GRANT on the FL, marks the first-mark comparison as
pending and starts the watchdog at 656 ticks, while frames go on being counted as before; with no GRANT held nothing
else changes. Taken while OFF or ON it only increments the stray-indication counter, whatever POWER command it was
meant to answer. -/
def Obligations.ReadySwitchesOn : Prop :=
  (∀ (s : State), s.ftb.power ≠ .warming →
      exec .ready s = .next (pump
        { s with ftb := { s.ftb with cnt := { s.ftb.cnt with strays := satInc s.ftb.cnt.strays } } })) ∧
  (∀ (s : State), s.ftb.power = .warming →
      s.ftb.held = none →
      exec .ready s = .next (pump
        { s with ftb := { s.ftb with power := .on, comparePending := true, watchdog := some 656, wake := none } })) ∧
  (∀ (g : Grant) (s : State), s.ftb.power = .warming →
      s.ftb.held = some g →
      ∃ t, exec .ready s = .next t ∧ t.ftb =
        { s.ftb with power := .on, held := none, comparePending := true, watchdog := some 656, wake := none } ∧
        (s.out.fl ++ [.grant g]) <+: t.out.fl ∧
        onlyChanges [.ftb, .rta, .subA, .subB, .global, .param, .eventClass, .ctb, .pgm, .hxu, .brt, .vpb, .alc, .tmc,
          .fl] s t)

/-- WAKE_INSTANT, while OFF in a sleep-counted frame that holds the wake instant, sends POWER(ON) and makes the state
WARMING, with no wake instant kept; the ticks up to the instant have then elapsed (log entry 2). Otherwise it changes
nothing (log entry 3). -/
def Obligations.WakeInstantPowersOn : Prop :=
  (∀ (len : Nat) (w : Nat) (s : State), s.ftb.power = .off →
      s.ftb.counting = .sleep len →
      s.ftb.wake = some w →
      w < len →
      exec .wakeInstant s = .next (pump
        { s with ftb := { s.ftb with power := .warming, wake := none, elapsed := max s.ftb.elapsed w }, out := { s.out with fl := s.out.fl ++ [.power true] } }))
        ∧
  (∀ (s : State), (s.ftb.power ≠ .off ∨ s.ftb.wake = none ∨ s.ftb.counting = .marks) →
      exec .wakeInstant s = .next (pump s)) ∧
  (∀ (len : Nat) (w : Nat) (s : State), s.ftb.counting = .sleep len →
      s.ftb.wake = some w →
      len ≤ w →
      exec .wakeInstant s = .next (pump s))

/-- MARK_WATCHDOG_EXPIRY while ON with the watchdog running sends POWER(OFF), stops the watchdog, drops the
comparison, and starts frame FN + 1 if frames were counted on marks. WARM_UP_FAILURE, in a sleep-counted frame granted
to a claim while WARMING, sends POWER(OFF), drops the held GRANT (no GRANT is sent, and one held after it names the
next frame), removes the timed claim it served and starts the next frame. Either posts FE_FAULT with its arguments,
which stays queued when its class is URGENT and the queue has room. In other states neither changes anything (log
entry 3). The names of claims are the model's numbers (log entry 13). Each frame start so made has its decision, as
SleepCountedBoundary says, the failed claim being missed with its kind's effect and a bound voice frame discarded
before it. At a frame start the renewals that were put off are made (a watch at the next occasion, a gap by R51, a
search 61 frames ahead, a search chain that has none begun), a STORE_READY is offered to the queue of a READY_DUE
subscription with a link where none was waiting, and at an FN that is a multiple of 128 every OPEN group loses one
from its countdown, those at the last step becoming READY partial in record order with TEXT_READY. -/
def Obligations.FrontEndFaults : Prop :=
  (∀ (s : State), s.ftb.power = .on →
      s.ftb.watchdog.isSome = true →
      ∃ t, exec .markWatchdogExpiry s = .next t ∧ t.ftb.watchdog = none ∧
        t.ftb.comparePending = false ∧
        t.ftb.power ≠ .on ∧
        (s.out.fl ++ [.power false]) <+: t.out.fl ∧
        t.ftb.fn = (if s.ftb.counting = .marks then (s.ftb.fn + 1) % 1024 else s.ftb.fn) ∧
        (s.ftb.counting ≠ .marks → t.ftb.counting = s.ftb.counting ∧ t.ftb.elapsed = s.ftb.elapsed) ∧
        (postable s .feFault → ((classEntry s 7).damaged = true ∨ (classEntry s 7).val = .urgent) → queued s t .feFault
          none s.ftb.fn 1) ∧
        onlyChanges [.fn, .ftb, .rta, .subA, .subB, .global, .param, .bearer, .eventClass, .ctb, .pgm, .hxu, .brt, .txs,
          .vpb, .alc, .tmc, .fl] s t) ∧
  (∀ (s : State), (s.ftb.power ≠ .on ∨ s.ftb.watchdog = none) →
      exec .markWatchdogExpiry s = .next (pump s)) ∧
  (∀ (len : Nat) (g : Grant) (s : State), s.ftb.power = .warming →
      s.ftb.counting = .sleep len →
      s.ftb.held = some g →
      s.ftb.watchdog = none →
      ∃ t, exec .warmUpFailure s = .next t ∧ t.ftb.fn = (s.ftb.fn + 1) % 1024 ∧
        t.ftb.elapsed = 0 ∧
        t.ftb.power ≠ .on ∧
        (s.out.fl ++ [.power false]) <+: t.out.fl ∧
        (∀ x, FlFrame.grant x ∉ t.out.fl.drop s.out.fl.length) ∧
        (∀ x, t.ftb.held = some x → x.fn = (s.ftb.fn + 1) % 1024) ∧
        (∀ n, g.serial = some n → n < s.rta.nextSerial → ∀ c ∈ t.rta.claims, c.serial ≠ n) ∧
        (postable s .feFault → ((classEntry s 7).damaged = true ∨ (classEntry s 7).val = .urgent) → queued s t .feFault
          (ownerSub g.owner) g.fn 0) ∧
        onlyChanges [.fn, .ftb, .rta, .subA, .subB, .global, .param, .bearer, .eventClass, .ctb, .pgm, .hxu, .brt, .txs,
          .vpb, .alc, .tmc, .fl] s t) ∧
  (∀ (s : State), (s.ftb.power ≠ .warming ∨ s.ftb.held = none ∨ s.ftb.counting = .marks) →
      exec .warmUpFailure s = .next (pump s)) ∧
  (∀ (y : State) (x : State) (s : State), s.ftb.power = .on →
      s.ftb.watchdog.isSome = true →
      Clean s →
      y = post .feFault none s.ftb.fn 1 (withFl [.power false]
        { s with ftb := { s.ftb with power := .off, watchdog := none, comparePending := false } }) →
      s.ftb.counting = .marks →
      x = { y with ftb := sleepFrame s y.ftb } →
      exec .markWatchdogExpiry s = .next (pump (afterDecision x (grantDecision (atDecision x))))) ∧
  (∀ (y : State) (s : State), s.ftb.power = .on →
      s.ftb.watchdog.isSome = true →
      y = post .feFault none s.ftb.fn 1 (withFl [.power false]
        { s with ftb := { s.ftb with power := .off, watchdog := none, comparePending := false } }) →
      s.ftb.counting ≠ .marks →
      exec .markWatchdogExpiry s = .next (pump (refreshWake y))) ∧
  (∀ (len : Nat) (g : Grant) (y : State) (x : State) (s : State), s.ftb.power = .warming →
      s.ftb.counting = .sleep len →
      s.ftb.held = some g →
      s.ftb.watchdog = none →
      Clean s →
      y = failedGrant g (dropBound (post .feFault (ownerSub g.owner) g.fn 0 (withFl [.power false]
        { s with ftb := { s.ftb with held := none } }))) →
      x = { y with ftb := { sleepFrame s y.ftb with power := .off } } →
      exec .warmUpFailure s = .next (pump (afterDecision x (grantDecision (atDecision x))))) ∧
  (∀ (s : State) (g : Grant), (g.serial = none → failedGrant g s = (if g.purpose = .connected then
      { s with rta := { s.rta with cnt := { s.rta.cnt with connectedLost := satInc s.rta.cnt.connectedLost } } } else
        s)) ∧
    ∀ c ∈ s.rta.claims, g.serial = some c.serial → Settled s → missedOf c s (failedGrant g s)) ∧
  (∀ (s : State), dropBound s = (if s.vpb.bound = none then s else { s with vpb := { s.vpb with
    bound := none, cnt := { s.vpb.cnt with upDiscarded := satInc s.vpb.cnt.upDiscarded } } })) ∧
  (∀ (old s : State), ((∀ u : Sub, (old.pgm.recs.get u).watchDue = false ∧ (old.pgm.recs.get u).gapDue = false ∧
        (inSearch old u = true → (old.pgm.recs.get u).chain.isSome = true)) → old.pgm.searchDue = false → dueRenewals
          old s = s) ∧
    (Settled s → s.rta.claims.length < 10 → ∀ u : Sub,
      ((old.pgm.recs.get u).watchDue = true → (s.pgm.recs.get u).watchDue = true →
        ((dueRenewals old s).pgm.recs.get u).watchDue = false ∧
        ((s.sub u).state = .camped → watchPlaced u s (dueRenewals old s))) ∧
      ((old.pgm.recs.get u).gapDue = true → (s.pgm.recs.get u).gapDue = true →
        ((dueRenewals old s).pgm.recs.get u).gapDue = false ∧ gapPlaced u s (dueRenewals old s)) ∧
      (inSearch old u = true → (old.pgm.recs.get u).chain = none → inSearch s u = true →
        ((dueRenewals old s).pgm.recs.get u).chain.isSome = true) ∧
      (old.pgm.searchDue = true → s.pgm.searchDue = true → (dueRenewals old s).pgm.searchDue = false ∧
        searchPlaced s (dueRenewals old s)))) ∧
  (∀ (old s : State) (u : Sub), ((∃ c ∈ old.rta.claims, c.kind = .reply ∧ c.owner = .sub u ∧ .storeReady u ∈ c.items) →
      offerAtFrameStart old u s = s) ∧
    ((∀ c ∈ old.rta.claims, c.kind = .reply → c.owner = .sub u → .storeReady u ∉ c.items) →
      (¬((s.sub u).state ∈ [.connecting, .connected, .handover] ∧ (s.sub u).notice = .readyDue ∧ (∀ c ∈ s.rta.claims,
        c.kind = .reply → c.owner = .sub u → .storeReady u ∉ c.items)) → offerAtFrameStart old u s = s) ∧
      ((s.sub u).state ∈ [.connecting, .connected, .handover] ∧ (s.sub u).notice = .readyDue → (∀ c ∈ s.rta.claims,
        c.kind = .reply → c.owner = .sub u → .storeReady u ∉ c.items) → ((queueOf s u).length < 16 → offerAtFrameStart
        old u s = { s with
          scs := s.scs.set u { s.sub u with notice := .storeOk },
          brt := { s.brt with queues := s.brt.queues.set u (queueOf s u ++ [.storeReady]) } }) ∧
        (16 ≤ (queueOf s u).length → offerAtFrameStart old u s = { s with brt := { s.brt with
          cnt := { s.brt.cnt with queueFull := s.brt.cnt.queueFull.set u (satInc (s.brt.cnt.queueFull.get u)) } } })))) ∧
  (∀ (s : State), (s.ftb.fn % 128 ≠ 0 → expiryStep s = s) ∧ (s.ftb.fn % 128 = 0 → s.txs.groups.length = 12 →
    (∀ i < 12, groupAt (expiryStep s) i = (groupAt s i).map (fun g => match g.state with
      | .opened n => if n ≤ 1 then { g with state := .ready true } else { g with state := .opened (n - 1) }
      | .ready _ => g)) ∧
    (expiryStep s).txs.slots = s.txs.slots ∧
    (expiryStep s).txs.ready = s.txs.ready ++ (List.range 12).filter (fun i => (groupAt s i).any (fun g => match g.state
      with | .opened n => decide (n ≤ 1) | .ready _ => false)) ∧
    ((expiryStep s).txs.cnt =
      { s.txs.cnt with expired := counted s.txs.cnt.expired ((List.range 12).countP (fun i => (groupAt s i).any (fun g => match g.state with | .opened n => decide (n ≤ 1) | .ready _ => false))) })
      ∧
    (postable s .textReady → s.alc.events.length < 21 → ∀ i < 12, ∀ g n, groupAt s i = some g →
      g.state = .opened n → n ≤ 1 → queued s (expiryStep s) .textReady (some g.sub) g.reference
        (g.total - g.received.length : Nat)) ∧
    onlyChanges [.txs, .alc, .eventClass, .tmc] s (expiryStep s)))

/-- A LINK_RELEASE for a CONNECTING or CONNECTED subscription, and CONNECT_GUARD_EXPIRY for a CONNECTING one whose
countdown is at its last step, make it CAMPED with the link-end effects and, where the claims list has room and no
entry is damaged on the way, with a page watch at its next occasion. A LINK_RELEASE for the subscription whose
handover runs (in a state that meets the invariant of serving cells) abandons the handover and does the same; that a
damage notice still on its way ends with it is the model's own mark (log entry 24). The expiry posts CONNECT_TIMEOUT.
A LINK_RELEASE for another state, or naming neither subscription, is only forwarded, and the expiry of a guard that is
not at its last step changes nothing (log entry 3). -/
def Obligations.LinkReleaseAndGuardExpiry : Prop :=
  (∀ (u : Sub) (body : Octets) (s : State), (s.sub u).state = .connecting ∨ (s.sub u).state = .connected →
      s.ftb.fn < 1024 →
      ∃ t, exec (.linkRelease (some u) body) s = .next t ∧ linkEnded u s t ∧
        (s.rta.claims.length < 16 → (∀ v, (s.sub u).serving = some v → v.cycle ∈ [32, 64, 128, 256] → Clean s → ∃ c ∈
          t.rta.claims, c.kind = .pageWatch ∧ c.owner = .sub u ∧ c.start = (s.ftb.fn + (((s.sub u).pagingKey * v.g) %
          v.cycle + 2048 - (s.ftb.fn + 1)) % v.cycle + 1) % 1024))) ∧
  (∀ (u : Sub) (n : Nat) (s : State), (s.sub u).state = .connecting →
      (s.sub u).guard = some n →
      n ≤ 1 →
      s.ftb.fn < 1024 →
      ∃ t, exec (.connectGuardExpiry u) s = .next t ∧ linkEnded u s t ∧
        (s.rta.claims.length < 16 → (∀ v, (s.sub u).serving = some v → v.cycle ∈ [32, 64, 128, 256] → Clean s → ∃ c ∈
          t.rta.claims, c.kind = .pageWatch ∧ c.owner = .sub u ∧ c.start = (s.ftb.fn + (((s.sub u).pagingKey * v.g) %
          v.cycle + 2048 - (s.ftb.fn + 1)) % v.cycle + 1) % 1024)) ∧
        (Clean s → s.vpb.radioLoop ≠ some u → s.rta.claims.length < 16 → postable s .connectTimeout → queued s t
          .connectTimeout (some u) 0 0)) ∧
  (∀ (u : Sub) (body : Octets) (r : HoRun) (s : State), (s.sub u).state = .handover →
      s.hxu.run = some r →
      r.sub = u →
      CoreInv s →
      ∃ t, exec (.linkRelease (some u) body) s = .next t ∧ linkEnded u s t ∧
        (s.ftb.fn < 1024 → s.rta.claims.length < 16 → (∀ v, (s.sub u).serving = some v → v.cycle ∈ [32, 64, 128, 256] →
          Clean s → ∃ c ∈ t.rta.claims, c.kind = .pageWatch ∧ c.owner = .sub u ∧ c.start = (s.ftb.fn + (((s.sub
          u).pagingKey * v.g) % v.cycle + 2048 - (s.ftb.fn + 1)) % v.cycle + 1) % 1024)) ∧
        handoverOver t ∧
        t.hxu.cnt.abandonments = satInc s.hxu.cnt.abandonments) ∧
  (∀ (u : Sub) (body : Octets) (s : State), (s.sub u).state ∈ [.detached, .search, .camped] →
      exec (.linkRelease (some u) body) s = .next (pump (forward (.control (some u) (.linkRelease body)) s))) ∧
  (∀ (body : Octets) (s : State), exec (.linkRelease none body) s = .next (pump (forward (.control none (.linkRelease
    body)) s))) ∧
  (∀ (u : Sub) (s : State), ((s.sub u).state ≠ .connecting ∨ ∀ n, (s.sub u).guard = some n → 1 < n) →
      exec (.connectGuardExpiry u) s = .next (pump s))

/-- SYNC_STATUS FAIL naming the target (cause 0), HANDOVER_GUARD_EXPIRY at the guard's last step (cause 1) and
TARGET_DAMAGE_NOTICE while a notice waits (cause 2) restore the running handover (in a state that meets the invariant
of serving cells): the subscription is CONNECTED on its source, its CONNECTED claim kept and HANDOVER_EXEC clear, the
table unfrozen, each undamaged bearer of it that was HELD is ACTIVE, HANDOVER_FAIL at the head of the uplink queue
with the tail of a full queue displaced, and the restore counted; the serving fields are unchanged where no entry is
found damaged. With no wrong position and room in the claims list besides, the recorded trigger counts stand again in
the entries that still match their records, the target's entry has no trigger and the failed-target penalty, every
other entry is as it was, RADIO_LOOP is as at acceptance, with LOOP_CHANGED where that changes it, a gap stands in the
list, and HO_FAILED is posted with the cause and the target's channel. Without a notice, or with a guard not at its
last step, nothing changes (log entry 3). The notice as a mark, dropped when the handover ends, is the model's own
(log entry 24). -/
def Obligations.HandoverRestored : Prop :=
  (∀ (u : Sub) (k : Key) (timing : Nat) (r : HoRun) (s : State), (s.sub u).state = .handover →
      s.hxu.run = some r →
      r.sub = u →
      k = r.target →
      keyInRange k = true →
      CoreInv s →
      ∃ t, exec (.syncStatus (some u) k (some .fail) timing) s = .next t ∧ restored r 0 s t ∧
        (Clean s → (t.sub u).serving = (s.sub u).serving) ∧
        (Settled s → s.rta.claims.length < 16 → sourceKept r 0 s t)) ∧
  (∀ (r : HoRun) (s : State), s.hxu.run = some r →
      r.guard ≤ 1 →
      CoreInv s →
      ∃ t, exec .handoverGuardExpiry s = .next t ∧ restored r 1 s t ∧
        (Clean s → (t.sub r.sub).serving = (s.sub r.sub).serving) ∧
        (Settled s → s.rta.claims.length < 16 → sourceKept r 1 s t)) ∧
  (∀ (r : HoRun) (s : State), s.hxu.run = some r →
      s.hxu.notice = true →
      CoreInv s →
      ∃ t, exec .targetDamageNotice s = .next t ∧ restored r 2 s t ∧
        (Clean s → (t.sub r.sub).serving = (s.sub r.sub).serving) ∧
        (Settled s → s.rta.claims.length < 16 → sourceKept r 2 s t)) ∧
  (∀ (s : State), (∀ r, s.hxu.run = some r → 1 < r.guard) →
      exec .handoverGuardExpiry s = .next (pump s)) ∧
  (∀ (s : State), s.hxu.notice = false →
      exec .targetDamageNotice s = .next (pump s)) ∧
  (∀ (s : State), s.hxu.run = none →
      s.hxu.notice = true →
      exec .targetDamageNotice s = .next (pump { s with hxu := { s.hxu with notice := false } }))

/-- SYNC_STATUS OK naming the target of the running handover, whose entry is held and read clean, commits it:
CONNECTED, the serving key the target's with the summary's area, T_cell and G where a target summary is held and the
source's else, the timing value kept, an entry of the target pinned SERVING, HANDOVER_EXEC clear, the table unfrozen,
each undamaged bearer of it that was HELD ACTIVE, HANDOVER_DONE at the head of the uplink queue and the commit
counted; the subscription owns the target's entry with the full stale allowance, no entry holds a trigger or reported
mark of it, a gap stands in the list and HO_DONE is posted with the target's channel and code (the last two with
room); no damage notice waits after it, which is the model's own mark (log entry 24). Where no entry holds the target,
or the one that holds it is found uncorrectable, the handover is restored with cause 2. For a CONNECTING or CONNECTED
subscription and its serving key, OK sets the serving timing value and nothing else. -/
def Obligations.HandoverCommitted : Prop :=
  (∀ (u : Sub) (k : Key) (timing : Nat) (r : HoRun) (v : Serving) (s : State), (s.sub u).state = .handover →
      s.hxu.run = some r →
      r.sub = u →
      k = r.target →
      keyInRange k = true →
      Clean s →
      s.ctb.cells.length = 64 →
      (s.sub u).serving = some v →
      (∃ i < 64, i / 4 = setOf k ∧ (cellAt s i).valid = true ∧ (cellAt s i).key = k) →
      ∃ t, exec (.syncStatus (some u) k (some .ok) timing) s = .next t ∧ (t.sub u).state = .connected ∧
        handoverOver t ∧
        t.rta.connected = s.rta.connected ∧
        t.hxu.timing = s.hxu.timing.set u (some timing) ∧
        queueOf t u = .handoverDone k timing :: (queueOf s u).take 15 ∧
        t.hxu.cnt.commits = satInc s.hxu.cnt.commits ∧
        (∃ j < 64, (cellAt t j).valid = true ∧ (cellAt t j).serving.get u = true ∧ (cellAt t j).key = k) ∧
        (s.pgm.target = none → (t.sub u).serving = some { v with key := k }) ∧
        (∀ x, s.pgm.target = some x → (t.sub u).serving = some
          { key := k, area := x.area, tCell := x.tCell, g := x.g, cycle := (if (effParam s u).prefCycle = 0 then x.tCell else min x.tCell (effParam s u).prefCycle) })
          ∧
        (∀ i < 32, (bearerAt t i).damaged = false → (bearerAt t i).val.owner = u → (bearerAt t i).val.state ≠ .held) ∧
        bearersMoved u .held .active s t ∧
        (∀ i < 64, (cellAt t i).valid = true → ((cellAt t i).part.get u).trigger = 0 ∧ ((cellAt t i).part.get
          u).reported = false) ∧
        (v.key ≠ k → CoreInv s → ∃ j < 64, (cellAt t j).valid = true ∧ (cellAt t j).key = k ∧ ((cellAt t j).part.get
          u).owned = true ∧ ((cellAt t j).part.get u).stale = (effParam s u).staleLimit) ∧
        (Settled s → s.rta.claims.length < 16 → gapHeld u s t ∧ (s.alc.events.length < 31 → postable s .hoDone → queued
          s t .hoDone (some u) k.channel k.code))) ∧
  (∀ (u : Sub) (k : Key) (timing : Nat) (s : State), (s.sub u).state = .connecting ∨ (s.sub u).state = .connected →
      keyInRange k = true →
      (s.sub u).serving.map (fun v => v.key) = some k →
      exec (.syncStatus (some u) k (some .ok) timing) s = .next (pump
        { s with hxu := { s.hxu with timing := s.hxu.timing.set u (some timing) } })) ∧
  (∀ (u : Sub) (k : Key) (timing : Nat) (r : HoRun) (s : State), (s.sub u).state = .handover →
      s.hxu.run = some r →
      r.sub = u →
      k = r.target →
      keyInRange k = true →
      CoreInv s →
      (∀ i < 64, (cellAt s i).valid = true → (cellAt s i).key = k → (cellAt s i).check = .two ∧ (cellAt s i).hoTarget =
        true) →
      ∃ t, exec (.syncStatus (some u) k (some .ok) timing) s = .next t ∧ restored r 2 s t ∧
        (Settled s → s.rta.claims.length < 16 → sourceKept r 2 s t))

/-- A HANDOVER_ORDER naming neither subscription or a key out of range (cause 2), taken while a handover runs (1), for
a subscription not CONNECTED (0), or naming the serving cell (3) is ignored: counted, HO_IGNORED posted, the frame
forwarded while the link is UP, nothing else changed. Any other is accepted: HANDOVER with HANDOVER_EXEC set and the
CONNECTED claim and serving fields kept (the effective cycle too unless its PARAM is found damaged), the table frozen,
the fallback frame and execution record filled, its trigger list (where no entry is found damaged) one record of each
valid entry that the subscription owns with a trigger count other than 0, in entry order, the guard between 5 and 100,
each undamaged bearer of the subscription that was ACTIVE is HELD, the acceptance counted, nothing forwarded. -/
def Obligations.HandoverOrderHandled : Prop :=
  (∀ (u : Option Sub) (k : Key) (guard : Nat) (cause : Nat) (s : State), (if u = none ∨ keyInRange k = false then some 2
    else if s.hxu.run.isSome = true then some 1 else if u.all (fun b => decide ((s.sub b).state = .connected)) = false
    then some 0 else if u.all (fun b => decide ((s.sub b).serving.map (fun v => v.key) = some k)) = true then some 3
    else none) = some cause →
      ∃ t, exec (.handoverOrder u k guard) s = .next t ∧ t.hxu =
        { s.hxu with cnt := { s.hxu.cnt with ignored := satInc s.hxu.cnt.ignored } } ∧
        onlyChanges [.hxu, .brt, .alc, .eventClass, .tmc] s t ∧
        (s.alc.up = true → t.brt = s.brt ∧ forwardedUp (.control u (.handoverOrder k guard)) s t) ∧
        (s.alc.up = true → Clean s → postable s .hoIgnored → queued s t .hoIgnored (if cause = 2 then none else u) cause
          (if cause = 2 then 0 else k.channel))) ∧
  (∀ (u : Sub) (k : Key) (guard : Nat) (v : Serving) (s : State), keyInRange k = true →
      s.hxu.run = none →
      (s.sub u).state = .connected →
      (s.sub u).serving = some v →
      v.key ≠ k →
      ∃ t, exec (.handoverOrder (some u) k guard) s = .next t ∧ (t.sub u).state = .handover ∧
        t.rta.hoExec = some u ∧
        t.ctb.frozen = true ∧
        t.rta.connected = s.rta.connected ∧
        (∃ n, (t.sub u).serving = some { v with cycle := n }) ∧
        ((s.tab.param.get u).check ≠ .two → (t.sub u).serving = some v) ∧
        t.hxu.run.map (fun r => (r.sub, r.source, r.timing)) = some (u, v.key, s.hxu.timing.get u) ∧
        t.hxu.run.map (fun r => (r.loop, r.target, r.guard)) = some (s.vpb.radioLoop.isSome, k, if guard < 5 then 5 else
          if 100 < guard then 100 else guard) ∧
        (Clean s → ∀ r, t.hxu.run = some r → triggersKept r t) ∧
        t.hxu.cnt.accepted = satInc s.hxu.cnt.accepted ∧
        forwardTrail t.alc = forwardTrail s.alc ∧
        (∀ i < 32, (bearerAt t i).damaged = false → (bearerAt t i).val.owner = u → (bearerAt t i).val.state ≠ .active) ∧
        bearersMoved u .active .held s t ∧
        onlyChanges [.ftb, .rta, .subA, .subB, .global, .param, .bearer, .eventClass, .ctb, .pgm, .hxu, .vpb, .alc,
          .tmc, .fl] s t)

/-- REACQUIRE_BUDGET_SPENT for a subscription whose REACQUIRE has had 32 granted frames removes that claim; an initial
acquisition ends with the candidate key absent and the search chain started (a COMMON claim whose start does not lie
ahead being refused as late, log entry 29), and a reselection fails with cause 2: flag and candidate cleared and
counted, the serving fields kept, the penalty given and the trigger zeroed where the candidate is held, and
RESELECT_FAILED posted. Where no REACQUIRE of the subscription has had 32 granted frames, it changes nothing (log
entry 3). -/
def Obligations.AcquisitionBudgetSpent : Prop :=
  (∀ (u : Sub) (s : State), (∃ c ∈ s.rta.claims, c.kind = .reacquire ∧ c.owner = .sub u ∧ 32 ≤ c.granted) →
      ∃ t, exec (.reacquireBudgetSpent u) s = .next t ∧ (∀ c ∈ t.rta.claims, c.kind = .reacquire → c.owner = .sub u →
        c.granted < 32) ∧
        ((s.sub u).state = .search → (t.sub u).candidate = none) ∧
        ((s.sub u).state = .camped → (s.sub u).reselecting = true → (s.sub u).candidate.isSome = true → (t.sub
          u).reselecting = false ∧ (t.sub u).candidate = none ∧ t.pgm.cnt.reselFailed = satInc s.pgm.cnt.reselFailed) ∧
        ((s.sub u).state = .search → (s.sub u).candidate.isSome = true → ContextInv s → Settled s → (t.sub u).state =
          .search ∧ searchStarted u s t) ∧
        ((s.sub u).state = .camped → (s.sub u).reselecting = true → Clean s → CoreInv s → ∀ k, (s.sub u).candidate =
          some k → (t.sub u).state = .camped ∧ (t.sub u).serving = (s.sub u).serving ∧ (∀ j < 64, (cellAt s j).valid =
          true → (cellAt s j).key = k → ((cellAt t j).part.get u).penalty = (effParam s u).penalty ∧ ((cellAt t
          j).part.get u).trigger = 0) ∧ (postable s .reselectFailed → queued s t .reselectFailed (some u) 2 k.channel)) ∧
        onlyChanges [.ftb, .rta, .subA, .subB, .global, .param, .eventClass, .ctb, .pgm, .hxu, .vpb, .alc, .tmc, .fl] s
          t) ∧
  (∀ (u : Sub) (s : State), (∀ c ∈ s.rta.claims, c.kind = .reacquire → c.owner = .sub u → c.granted < 32) →
      exec (.reacquireBudgetSpent u) s = .next (pump s))

/-- GROUP_EXPIRY of a record that holds an OPEN group at its last step makes the group READY with the partial mark,
puts it at the tail of the ready list, counts it, and posts TEXT_READY with the reference and the number of missing
segments; its slots stay in use. For any other record it changes nothing (log entry 3). -/
def Obligations.GroupReleasedPartial : Prop :=
  (∀ (i : Nat) (g : Group) (n : Nat) (s : State), groupAt s i = some g →
      g.state = .opened n →
      n ≤ 1 →
      ∃ t, exec (.groupExpiry i) s = .next t ∧ groupAt t i = some { g with state := .ready true } ∧
        t.txs.ready = s.txs.ready ++ [i] ∧
        t.txs.slots = s.txs.slots ∧
        (∀ j < 12, j ≠ i → groupAt t j = groupAt s j) ∧
        t.txs.cnt = { s.txs.cnt with expired := satInc s.txs.cnt.expired } ∧
        (postable s .textReady → queued s t .textReady (some g.sub) g.reference (g.total - g.received.length : Nat)) ∧
        onlyChanges [.txs, .alc, .eventClass, .tmc] s t) ∧
  (∀ (i : Nat) (s : State), (∀ g n, groupAt s i = some g → g.state = .opened n → 1 < n) →
      exec (.groupExpiry i) s = .next (pump s))

/-- CODEC_PERIOD while INACTIVE delivers silence and drops the codec's frame. Otherwise, while CODEC_LOOP is open, the
pull delivers silence in ARMED and PREFILL; in PLAYING the frame at next-to-play if it is held, else the last frame
concealed by one step more while fewer than three steps have run, else silence, and next-to-play advances by one;
while both loops are open the codec's frame becomes the pending uplink frame with the uplink sequence, an older one
being discarded and counted. With CODEC_LOOP closed the codec's frame takes the uplink sequence and is offered to the
playout buffer before the pull: in ARMED it enters and sets next-to-play, with depth 2 it is played in the same pull;
later it is late, duplicate, an overflow or held by its distance, and played at once where it is due. The pull still
delivers exactly one frame and the pending frame is kept. With only RADIO_LOOP closed the codec's frame is dropped
uncounted, its sequence not used. Unless INACTIVE, each pull takes an occupancy sample of the frames then held,
CODEC_LOOP open: in REALTIME it joins the last 32 samples, in ACCUMULATE it is counted and enters the minimum and
maximum. -/
def Obligations.CodecPeriodPull : Prop :=
  (∀ (payload : Octets) (s : State), s.vpb.play = none →
      exec (.codecPeriod payload) s = .next (pump { s with out := { s.out with codec := s.out.codec ++ [.silence] } })) ∧
  (∀ (payload : Octets) (p : Playout) (s : State), s.vpb.codecLoop = false →
      s.vpb.play = some p →
      (∀ n, p.phase ≠ .playing n) →
      ∃ t, exec (.codecPeriod payload) s = .next t ∧ t.out.codec = s.out.codec ++ [.silence] ∧
        t.vpb.cnt = { s.vpb.cnt with upDiscarded := t.vpb.cnt.upDiscarded } ∧
        t.vpb.play = some { p with upSeq := if s.vpb.radioLoop = none then (p.upSeq + 1) % 256 else p.upSeq }) ∧
  (∀ (payload : Octets) (p : Playout) (n : Nat) (f : VoiceFrame) (s : State), s.vpb.codecLoop = false →
      s.vpb.play = some p →
      p.phase = .playing n →
      f ∈ p.buffer →
      f.seq = n →
      (p.buffer.map (fun g => g.seq)).Nodup →
      ∃ t, exec (.codecPeriod payload) s = .next t ∧ t.out.codec = s.out.codec ++ [.frame f.payload] ∧
        t.vpb.cnt = { s.vpb.cnt with upDiscarded := t.vpb.cnt.upDiscarded, played := satInc s.vpb.cnt.played } ∧
        t.vpb.play = some
          { p with buffer := p.buffer.filter (fun g => g.seq != n), last := some f.payload, run := 0, phase := .playing ((n + 1) % 256), upSeq := if s.vpb.radioLoop = none then (p.upSeq + 1) % 256 else p.upSeq })
          ∧
  (∀ (payload : Octets) (p : Playout) (n : Nat) (x : Octets) (s : State), s.vpb.codecLoop = false →
      s.vpb.play = some p →
      p.phase = .playing n →
      (∀ f ∈ p.buffer, f.seq ≠ n) →
      p.last = some x →
      p.run < 3 →
      ∃ t, exec (.codecPeriod payload) s = .next t ∧ t.out.codec = s.out.codec ++ [.conceal x (p.run + 1)] ∧
        t.vpb.cnt = { s.vpb.cnt with upDiscarded := t.vpb.cnt.upDiscarded, concealed := satInc s.vpb.cnt.concealed } ∧
        t.vpb.play = some
          { p with run := p.run + 1, phase := .playing ((n + 1) % 256), upSeq := if s.vpb.radioLoop = none then (p.upSeq + 1) % 256 else p.upSeq })
          ∧
  (∀ (payload : Octets) (p : Playout) (n : Nat) (s : State), s.vpb.codecLoop = false →
      s.vpb.play = some p →
      p.phase = .playing n →
      (∀ f ∈ p.buffer, f.seq ≠ n) →
      p.last = none ∨ 3 ≤ p.run →
      ∃ t, exec (.codecPeriod payload) s = .next t ∧ t.out.codec = s.out.codec ++ [.silence] ∧
        t.vpb.cnt = { s.vpb.cnt with upDiscarded := t.vpb.cnt.upDiscarded, silent := satInc s.vpb.cnt.silent } ∧
        t.vpb.play = some
          { p with phase := .playing ((n + 1) % 256), upSeq := if s.vpb.radioLoop = none then (p.upSeq + 1) % 256 else p.upSeq })
          ∧
  (∀ (payload : Octets) (p : Playout) (s : State), s.vpb.codecLoop = false →
      s.vpb.radioLoop = none →
      s.vpb.play = some p →
      ∃ t, exec (.codecPeriod payload) s = .next t ∧ t.vpb.pendingUp = some { seq := p.upSeq, payload := payload } ∧
        t.vpb.cnt.upDiscarded = (if s.vpb.pendingUp.isSome = true then satInc s.vpb.cnt.upDiscarded else
          s.vpb.cnt.upDiscarded)) ∧
  (∀ (payload : Octets) (s : State), (s.vpb.codecLoop = true ∨ s.vpb.radioLoop ≠ none) →
      ∃ t, exec (.codecPeriod payload) s = .next t ∧ t.vpb.pendingUp = s.vpb.pendingUp ∧
        t.out.codec.length = s.out.codec.length + 1 ∧
        t.vpb.cnt.upDiscarded = s.vpb.cnt.upDiscarded) ∧
  (∀ (payload : Octets) (p : Playout) (s : State), s.vpb.codecLoop = true →
      s.vpb.play = some p →
      p.phase = .armed →
      1 < p.depth / 2 →
      ∃ t, exec (.codecPeriod payload) s = .next t ∧ t.out.codec = s.out.codec ++ [.silence] ∧
        t.vpb.cnt = s.vpb.cnt ∧
        t.vpb.play = some
          { p with buffer := [{ seq := p.upSeq, payload := payload }], phase := .prefill p.upSeq, upSeq := (p.upSeq + 1) % 256 })
          ∧
  (∀ (payload : Octets) (p : Playout) (s : State), s.vpb.codecLoop = true →
      s.vpb.play = some p →
      (p.phase = .armed ∧ p.depth / 2 ≤ 1 ∧ p.buffer = [] ∨ p.phase = .playing p.upSeq ∧ (∀ f ∈ p.buffer, f.seq ≠
        p.upSeq) ∧ p.buffer.length < p.depth) →
      ∃ t, exec (.codecPeriod payload) s = .next t ∧ t.out.codec = s.out.codec ++ [.frame payload] ∧
        t.vpb.cnt = { s.vpb.cnt with played := satInc s.vpb.cnt.played } ∧
        t.vpb.play = some
          { p with last := some payload, run := 0, phase := .playing ((p.upSeq + 1) % 256), upSeq := (p.upSeq + 1) % 256 })
          ∧
  (∀ (payload : Octets) (p : Playout) (n : Nat) (s : State), s.vpb.codecLoop = true →
      s.vpb.play = some p →
      p.phase.next = some n →
      ∃ t, exec (.codecPeriod payload) s = .next t ∧ t.vpb.play.map (fun x => x.upSeq) = some ((p.upSeq + 1) % 256) ∧
        t.vpb.cnt.late = (if 128 ≤ (p.upSeq + 256 - n % 256) % 256 then satInc s.vpb.cnt.late else s.vpb.cnt.late) ∧
        t.vpb.cnt.duplicate = (if (p.upSeq + 256 - n % 256) % 256 < 128 ∧ (∃ f ∈ p.buffer, f.seq = p.upSeq) then satInc
          s.vpb.cnt.duplicate else s.vpb.cnt.duplicate) ∧
        t.vpb.cnt.overflow = (if (p.upSeq + 256 - n % 256) % 256 < 128 ∧ (∀ f ∈ p.buffer, f.seq ≠ p.upSeq) ∧ p.depth ≤
          p.buffer.length then satInc s.vpb.cnt.overflow else s.vpb.cnt.overflow) ∧
        (0 < (p.upSeq + 256 - n % 256) % 256 → (p.upSeq + 256 - n % 256) % 256 < 128 → (∀ f ∈ p.buffer, f.seq ≠ p.upSeq)
          → p.buffer.length < p.depth → n < 256 → p.upSeq < 256 → ∀ x ∈ t.vpb.play.toList,
          ({ seq := p.upSeq, payload := payload } : VoiceFrame) ∈ x.buffer)) ∧
  (∀ (payload : Octets) (b : Sub) (p : Playout) (s : State), s.vpb.codecLoop = false →
      s.vpb.radioLoop = some b →
      s.vpb.play = some p →
      ∃ t, exec (.codecPeriod payload) s = .next t ∧ t.vpb.play.map (fun x => x.upSeq) = some p.upSeq) ∧
  (∀ (payload : Octets) (s : State), ∃ t, exec (.codecPeriod payload) s = .next t ∧ onlyChanges [.vpb, .codec, .ftb,
    .fl, .global, .eventClass, .alc, .tmc] s t ∧
        (Clean s → onlyChanges [.vpb, .codec, .alc] s t) ∧
        t.vpb.bound = s.vpb.bound ∧
        t.vpb.codecLoop = s.vpb.codecLoop ∧
        t.vpb.radioLoop = s.vpb.radioLoop) ∧
  (∀ (payload : Octets) (p : Playout) (s : State), s.vpb.codecLoop = false →
      s.vpb.play = some p →
      s.tab.global.sound = true →
      ∃ t, exec (.codecPeriod payload) s = .next t ∧ ((effGlobal s).mode = .realtime → t.vpb.occ =
        { s.vpb.occ with recent := (s.vpb.occ.recent ++ [p.buffer.length]).drop (s.vpb.occ.recent.length + 1 - 32) }) ∧
        ((effGlobal s).mode = .accumulate → t.vpb.occ =
          { s.vpb.occ with count := satInc s.vpb.occ.count, low := some (s.vpb.occ.low.elim p.buffer.length (fun m => min p.buffer.length m)), high := some (s.vpb.occ.high.elim p.buffer.length (fun m => max p.buffer.length m)) }))

/-- A PAGE for a CAMPED subscription with the frame number of its read occasion is taken: the read occasion becomes
absent, the page and the items beyond the sixteenth are counted. For a PAGE of one well-formed item, no entry holding
a wrong position: an item that matches a usable identity and is permitted posts PAGED when no IDLE_TEXT follows, the
claims staying as they are; with n to follow it inserts a DELIVERY of n frames from the next frame and a REPLY after
it, and opens the reply window; one that matches but is not permitted posts SCREENED, and with n to follow a REPLY
after those frames carries the TEXT_REFUSE, with no DELIVERY; one that matches nothing posts PAGE_UNVERIFIED where a
damaged identity of its kind could hold it, and is counted else. Which bit of a screening word stands for a code is
the model's reading (log entry 26). -/
def Obligations.PageTaken : Prop :=
  (∀ (u : Sub) (fn : Nat) (items : List PageItem) (s : State), (s.sub u).state = .camped →
      (s.pgm.recs.get u).readOccasion = some fn →
      ∃ t, exec (.page (some u) fn items) s = .next t ∧ (t.pgm.recs.get u).readOccasion = none ∧
        t.pgm.cnt.pagesTaken = satInc s.pgm.cnt.pagesTaken ∧
        t.pgm.cnt.itemsIgnored = satAdd s.pgm.cnt.itemsIgnored (items.length - 16) ∧
        onlyChanges [.identity, .screen, .ftb, .rta, .subA, .subB, .global, .param, .eventClass, .ctb, .pgm, .hxu, .vpb,
          .alc, .tmc, .fl] s t) ∧
  (∀ (u : Sub) (fn : Nat) (items : List PageItem) (i : PageItem) (k : IdKind) (s : State), (s.sub u).state = .camped →
      (s.pgm.recs.get u).readOccasion = some fn →
      items = [i] →
      pageItemKind i = some k →
      Clean s →
      (∃ j < 4, (identityAt s (4 * u.code + j)).damaged = false ∧ (identityAt s (4 * u.code + j)).val.valid = true ∧
        (identityAt s (4 * u.code + j)).val.kind = k ∧ (if k = .permanent then (identityAt s (4 * u.code +
        j)).val.digits = i.digits else (identityAt s (4 * u.code + j)).val.number = i.number)) →
      (∀ d < i.span, i.base + d < (effParam s u).screenLen ∧ ((screenAt s (16 * u.code + (i.base + d) / 16)).damaged =
        true ∨ (screenAt s (16 * u.code + (i.base + d) / 16)).val.getLsbD ((i.base + d) % 16) = false)) →
      i.follows = 0 →
      postable s .paged →
      ∃ t, exec (.page (some u) fn items) s = .next t ∧ queued s t .paged (some u) i.base i.ref ∧
        t.rta = s.rta ∧
        onlyChanges [.pgm, .alc] s t) ∧
  (∀ (u : Sub) (fn : Nat) (items : List PageItem) (i : PageItem) (k : IdKind) (s : State), (s.sub u).state = .camped →
      (s.pgm.recs.get u).readOccasion = some fn →
      fn = s.ftb.fn →
      fn < 1024 →
      items = [i] →
      pageItemKind i = some k →
      Clean s →
      (∃ j < 4, (identityAt s (4 * u.code + j)).damaged = false ∧ (identityAt s (4 * u.code + j)).val.valid = true ∧
        (identityAt s (4 * u.code + j)).val.kind = k ∧ (if k = .permanent then (identityAt s (4 * u.code +
        j)).val.digits = i.digits else (identityAt s (4 * u.code + j)).val.number = i.number)) →
      (∀ d < i.span, i.base + d < (effParam s u).screenLen ∧ ((screenAt s (16 * u.code + (i.base + d) / 16)).damaged =
        true ∨ (screenAt s (16 * u.code + (i.base + d) / 16)).val.getLsbD ((i.base + d) % 16) = false)) →
      i.follows ≠ 0 →
      s.rta.claims.length < 15 →
      storeReadyWaiting s u = false →
      ∃ t, exec (.page (some u) fn items) s = .next t ∧ (∃ c ∈ t.rta.claims, c.kind = .delivery ∧ c.owner = .sub u ∧
        c.start = (fn + 1) % 1024 ∧ i.follows ≤ c.length) ∧
        (∃ c ∈ t.rta.claims, c.kind = .reply ∧ c.owner = .sub u ∧ c.start = (fn + i.follows + 1) % 1024) ∧
        (t.pgm.recs.get u).window = some
          { occasion := fn, deliveryEnd := some ((fn + i.follows) % 1024), replyFn := (fn + i.follows + 1) % 1024 } ∧
        t.alc.events = s.alc.events) ∧
  (∀ (u : Sub) (fn : Nat) (items : List PageItem) (i : PageItem) (k : IdKind) (s : State), (s.sub u).state = .camped →
      (s.pgm.recs.get u).readOccasion = some fn →
      items = [i] →
      pageItemKind i = some k →
      Clean s →
      ¬(∃ j < 4, (identityAt s (4 * u.code + j)).damaged = false ∧ (identityAt s (4 * u.code + j)).val.valid = true ∧
        (identityAt s (4 * u.code + j)).val.kind = k ∧ (if k = .permanent then (identityAt s (4 * u.code +
        j)).val.digits = i.digits else (identityAt s (4 * u.code + j)).val.number = i.number)) →
      (∀ j < 4, (identityAt s (4 * u.code + j)).damaged = false) →
      ∃ t, exec (.page (some u) fn items) s = .next t ∧ t.pgm.cnt.itemsUnmatched = satInc s.pgm.cnt.itemsUnmatched ∧
        t.rta = s.rta ∧
        t.alc.events = s.alc.events) ∧
  (∀ (u : Sub) (fn : Nat) (items : List PageItem) (i : PageItem) (k : IdKind) (s : State), (s.sub u).state = .camped →
      (s.pgm.recs.get u).readOccasion = some fn →
      items = [i] →
      pageItemKind i = some k →
      Clean s →
      ¬(∃ j < 4, (identityAt s (4 * u.code + j)).damaged = false ∧ (identityAt s (4 * u.code + j)).val.valid = true ∧
        (identityAt s (4 * u.code + j)).val.kind = k ∧ (if k = .permanent then (identityAt s (4 * u.code +
        j)).val.digits = i.digits else (identityAt s (4 * u.code + j)).val.number = i.number)) →
      (∃ j < 4, (identityAt s (4 * u.code + j)).damaged = true ∧ (identityAt s (4 * u.code + j)).val.kind = k) →
      ∃ t, exec (.page (some u) fn items) s = .next t ∧ (postable s .pageUnverified → queued s t .pageUnverified (some
        u) (if k = .permanent then 0 else 1) i.ref) ∧
        t.rta = s.rta ∧
        t.pgm.cnt.itemsUnmatched = s.pgm.cnt.itemsUnmatched ∧
        onlyChanges [.pgm, .alc] s t) ∧
  (∀ (u : Sub) (fn : Nat) (items : List PageItem) (i : PageItem) (k : IdKind) (s : State), (s.sub u).state = .camped →
      (s.pgm.recs.get u).readOccasion = some fn →
      items = [i] →
      pageItemKind i = some k →
      Clean s →
      (∃ j < 4, (identityAt s (4 * u.code + j)).damaged = false ∧ (identityAt s (4 * u.code + j)).val.valid = true ∧
        (identityAt s (4 * u.code + j)).val.kind = k ∧ (if k = .permanent then (identityAt s (4 * u.code +
        j)).val.digits = i.digits else (identityAt s (4 * u.code + j)).val.number = i.number)) →
      ¬(∀ d < i.span, i.base + d < (effParam s u).screenLen ∧ ((screenAt s (16 * u.code + (i.base + d) / 16)).damaged =
        true ∨ (screenAt s (16 * u.code + (i.base + d) / 16)).val.getLsbD ((i.base + d) % 16) = false)) →
      ∃ t, exec (.page (some u) fn items) s = .next t ∧ (postable s .screened → queued s t .screened (some u) i.base
        i.ref) ∧
        (i.follows = 0 → t.rta = s.rta) ∧
        (i.follows ≠ 0 → fn = s.ftb.fn → fn < 1024 → s.rta.claims.length < 16 → (∀ c ∈ s.rta.claims, ¬(c.kind = .reply ∧
          c.owner = .sub u)) → (∃ c ∈ t.rta.claims, c.kind = .reply ∧ c.owner = .sub u ∧ c.start = (fn + i.follows + 1)
          % 1024 ∧ c.items = [.refusePage u i.ref]) ∧ (∀ c ∈ t.rta.claims, c.kind = .delivery → c ∈ s.rta.claims) ∧
          (t.pgm.recs.get u).window = some
          { occasion := fn, deliveryEnd := none, replyFn := (fn + i.follows + 1) % 1024 }))

/-- A well-formed SUMMARY, no entry holding a wrong position, gives every subscription served by the cell the
summary's area, T_cell and G with the effective cycle that follows, writes the barred mark of the entry that holds the
cell, and becomes the target summary where the cell is the target of the running handover; other subscriptions keep
their serving fields. One that matches none of these is only counted. -/
def Obligations.SummaryReplacesServingFields : Prop :=
  (∀ (k : Key) (tCell g area : Nat) (barred : Bool) (s : State), keyInRange k = true →
      tCell ∈ [32, 64, 128, 256] →
      g ∈ [1, 3, 5, 7] →
      Clean s →
      CoreInv s →
      ∃ t, exec (.summary k tCell g area barred) s = .next t ∧ (∀ u : Sub, isServed s u = true → (s.sub u).serving.map
        (fun v => v.key) = some k → (t.sub u).serving = some
        { key := k, area := area, tCell := tCell, g := g, cycle := (if (effParam s u).prefCycle = 0 then tCell else min tCell (effParam s u).prefCycle) })
        ∧
        (∀ u : Sub, (s.sub u).serving.map (fun v => v.key) ≠ some k → (t.sub u).serving = (s.sub u).serving) ∧
        (∀ i < 64, (cellAt s i).valid = true → (cellAt s i).key = k → (cellAt t i).valid = true ∧ (cellAt t i).key = k ∧
          (cellAt t i).barred = barred) ∧
        (s.hxu.run.map (fun r => r.target) = some k → t.pgm.target = some { tCell := tCell, g := g, area := area }) ∧
        (s.hxu.run.map (fun r => r.target) ≠ some k → t.pgm.target = s.pgm.target)) ∧
  (∀ (k : Key) (tCell g area : Nat) (barred : Bool) (s : State), keyInRange k = true →
      tCell ∈ [32, 64, 128, 256] →
      g ∈ [1, 3, 5, 7] →
      Clean s →
      CoreInv s →
      (∀ u : Sub, (s.sub u).serving.map (fun v => v.key) ≠ some k) →
      (∀ i < 64, (cellAt s i).valid = true → (cellAt s i).key ≠ k) →
      s.hxu.run.map (fun r => r.target) ≠ some k →
      exec (.summary k tCell g area barred) s = .next (pump
        { s with pgm := { s.pgm with cnt := { s.pgm.cnt with summariesUnmatched := satInc s.pgm.cnt.summariesUnmatched } } }))

/-- A MEAS_REPORT for an attached subscription is counted as taken, with the cells beyond the twenty-fourth. For a
report of one cell that an entry holds, no entry holding a wrong position, the entry stays valid, its sample count
rises by one up to 255, and its filtered level becomes M = 4 n - 1120 at sample count 0, else F + floor((M - F) /
2^k), k being k_conn for CONNECTING, CONNECTED and HANDOVER and k_idle else; the subscription owns it, with the stale
count at the stale limit; a report of the serving cell sets the weak flag below 8 * weak declare, clears it from 8 *
(weak declare + clear gap) on, and keeps it between. A reported cell that no entry holds gets an entry where discovery
is on and the table not frozen: an unlisted one without a pin before, with one sample, owned by the subscription; else
the cell is dropped and counted, and the refusal too where the table is frozen. A report without cells takes one from
the stale count of each owned entry, which at 0 loses the owned mark, and becomes invalid where nothing holds it; the
serving entry at 0 sends the subscription to SEARCH, but not in HANDOVER. Where one neighbour without a penalty is
reported and the serving entry is measured and not stale: in CAMPED its trigger count rises while its rank exceeds the
idle serving rank and it is not barred, else is 0, and from the reselection count on a reselection to it starts if
none runs and the claims list has room; in CONNECTED, above the connected threshold and at the time to trigger, a
MEAS_RESULT of it joins the queue and its reported mark is set. -/
def Obligations.MeasReportFiltersLevels : Prop :=
  (∀ (u : Sub) (fn : Nat) (cells : List RawCell) (s : State), (s.sub u).state ≠ .detached →
      ∃ t, exec (.measReport (some u) fn cells) s = .next t ∧ t.mfu.taken = satInc s.mfu.taken ∧
        t.mfu.cellsIgnored = satAdd s.mfu.cellsIgnored (cells.length - 24) ∧
        t.mfu.discarded = s.mfu.discarded ∧
        onlyChanges [.ftb, .rta, .subA, .subB, .global, .param, .bearer, .eventClass, .ctb, .mfu, .pgm, .hxu, .brt,
          .vpb, .alc, .tmc, .fl] s t) ∧
  (∀ (u : Sub) (fn : Nat) (cells : List RawCell) (c : RawCell) (i : Nat) (s : State), (s.sub u).state ≠ .detached →
      Clean s →
      CoreInv s →
      RangesInv s →
      cells = [c] →
      keyInRange c.key = true →
      i < 64 →
      (cellAt s i).valid = true →
      (cellAt s i).key = c.key →
      ∃ t, exec (.measReport (some u) fn cells) s = .next t ∧ (cellAt t i).valid = true ∧
        (cellAt t i).key = c.key ∧
        (cellAt t i).samples = min ((cellAt s i).samples + 1) 255 ∧
        (cellAt t i).level = (if (cellAt s i).samples = 0 then 4 * (c.level : Int) - 1120 else (cellAt s i).level + (4 *
          (c.level : Int) - 1120 - (cellAt s i).level) / ((2 ^ (if (s.sub u).state ∈ [.connecting, .connected,
          .handover] then (effParam s u).kConn else (effParam s u).kIdle) : Nat) : Int)) ∧
        ((cellAt t i).part.get u).owned = true ∧
        ((cellAt t i).part.get u).stale = (effParam s u).staleLimit ∧
        ((cellAt s i).serving.get u = true → (t.sub u).weak = (if (cellAt t i).level < 8 * (effParam s u).weakDeclare
          then true else if 8 * ((effParam s u).weakDeclare + (effParam s u).clearGap) ≤ (cellAt t i).level then false
          else (s.sub u).weak))) ∧
  (∀ (u : Sub) (fn : Nat) (c : RawCell) (s : State), (s.sub u).state ≠ .detached →
      Clean s →
      CoreInv s →
      keyInRange c.key = true →
      (∀ i < 64, (cellAt s i).valid = true → (cellAt s i).key ≠ c.key) →
      (effParam s u).discovery = true →
      s.ctb.frozen = false →
      ∃ t, exec (.measReport (some u) fn [c]) s = .next t ∧ (∃ j < 64, j / 4 = setOf c.key ∧ ((cellAt s j).valid = true
        → (cellAt s j).pinned = false) ∧ (cellAt t j).valid = true ∧ (cellAt t j).key = c.key ∧ (cellAt t j).listed =
        false ∧ (cellAt t j).barred = false ∧ (cellAt t j).offset = 0 ∧ (cellAt t j).samples = 1 ∧ (cellAt t j).level =
        4 * (c.level : Int) - 1120 ∧ ((cellAt t j).part.get u).owned = true ∧ ((cellAt t j).part.get u).stale =
        (effParam s u).staleLimit ∧ ((cellAt t j).part.get u.other).owned = false) ∧
        t.ctb.cnt.allocations = satInc s.ctb.cnt.allocations ∧
        t.mfu.discoveryDrops = s.mfu.discoveryDrops) ∧
  (∀ (u : Sub) (fn : Nat) (c : RawCell) (s : State), (s.sub u).state ≠ .detached →
      Clean s →
      CoreInv s →
      keyInRange c.key = true →
      (∀ i < 64, (cellAt s i).valid = true → (cellAt s i).key ≠ c.key) →
      ((effParam s u).discovery = false ∨ s.ctb.frozen = true) →
      ∃ t, exec (.measReport (some u) fn [c]) s = .next t ∧ t.mfu.discoveryDrops = satInc s.mfu.discoveryDrops ∧
        (∀ j < 64, (cellAt t j).valid = true → (cellAt t j).key ≠ c.key) ∧
        t.ctb.cnt.allocations = s.ctb.cnt.allocations ∧
        t.ctb.cnt.refused = (if (effParam s u).discovery = true then satInc s.ctb.cnt.refused else s.ctb.cnt.refused)) ∧
  (∀ (u : Sub) (fn : Nat) (i : Nat) (s : State), (s.sub u).state ≠ .detached →
      Clean s →
      CoreInv s →
      i < 64 →
      (cellAt s i).valid = true →
      ((cellAt s i).part.get u).owned = true →
      (cellAt s i).serving.get u = false →
      ∃ t, exec (.measReport (some u) fn []) s = .next t ∧ (1 < ((cellAt s i).part.get u).stale → (cellAt t i).valid =
        true ∧ ((cellAt t i).part.get u).owned = true ∧ ((cellAt t i).part.get u).stale = ((cellAt s i).part.get
        u).stale - 1) ∧
        (((cellAt s i).part.get u).stale ≤ 1 → ((cellAt t i).valid = true ↔ (cellAt s i).pinned = true ∨ ((cellAt s
          i).part.get u.other).owned = true ∨ (cellAt s i).listed = true)) ∧
        (((cellAt s i).part.get u).stale ≤ 1 → (cellAt t i).valid = true → (cellAt t i).key = (cellAt s i).key ∧
          ((cellAt t i).part.get u).owned = false ∧ ((cellAt t i).part.get u).stale = 0 ∧ ((cellAt t i).part.get
          u).trigger = 0 ∧ ((cellAt t i).part.get u).reported = false)) ∧
  (∀ (u : Sub) (fn : Nat) (i : Nat) (s : State), Clean s →
      CoreInv s →
      i < 64 →
      (cellAt s i).valid = true →
      ((cellAt s i).part.get u).owned = true →
      (cellAt s i).serving.get u = true →
      ∃ t, exec (.measReport (some u) fn []) s = .next t ∧ (1 < ((cellAt s i).part.get u).stale → (t.sub u).state =
        (s.sub u).state ∧ ((cellAt t i).part.get u).stale = ((cellAt s i).part.get u).stale - 1) ∧
        (((cellAt s i).part.get u).stale ≤ 1 → (t.sub u).state = (if (s.sub u).state = .handover then .handover else
          .search))) ∧
  (∀ (u : Sub) (fn : Nat) (c : RawCell) (i : Nat) (j : Nat) (s : State), (s.sub u).state = .camped →
      keyInRange c.key = true →
      i < 64 →
      (cellAt s i).valid = true →
      (cellAt s i).key = c.key →
      ((cellAt s i).part.get u).penalty = 0 →
      j < 64 →
      (cellAt s j).valid = true →
      (cellAt s j).serving.get u = true →
      i ≠ j →
      (cellAt s j).samples ≠ 0 →
      (((cellAt s j).part.get u).owned = true ∧ 1 < ((cellAt s j).part.get u).stale) →
      Clean s →
      CoreInv s →
      RangesInv s →
      ∃ t, exec (.measReport (some u) fn [c]) s = .next t ∧ ((cellAt t i).part.get u).trigger = (if ((cellAt s i).barred
        = false ∧ (cellAt s j).level + 4 * (cellAt s j).offset + 4 * ((effParam s u).hysteresis : Int) < (cellAt t
        i).level + 4 * (cellAt s i).offset) then min (((cellAt s i).part.get u).trigger + 1) 15 else 0) ∧
        (((cellAt t i).part.get u).trigger < (effParam s u).reselCount → (t.sub u).reselecting = (s.sub u).reselecting ∧
          (t.sub u).candidate = (s.sub u).candidate) ∧
        ((effParam s u).reselCount ≤ ((cellAt t i).part.get u).trigger → (s.sub u).reselecting = false →
          s.rta.claims.length < 15 → (t.sub u).reselecting = true ∧ (t.sub u).candidate = some c.key ∧
          t.pgm.cnt.reselStarted = satInc s.pgm.cnt.reselStarted ∧ ∃ d ∈ t.rta.claims, d.kind = .reacquire ∧ d.owner =
          .sub u ∧ 32 ≤ d.length)) ∧
  (∀ (u : Sub) (fn : Nat) (c : RawCell) (i : Nat) (j : Nat) (v : Serving) (s : State), (s.sub u).state = .connected →
      (s.sub u).serving = some v →
      keyInRange c.key = true →
      i < 64 →
      (cellAt s i).valid = true →
      (cellAt s i).key = c.key →
      ((cellAt s i).part.get u).penalty = 0 →
      j < 64 →
      (cellAt s j).valid = true →
      (cellAt s j).serving.get u = true →
      i ≠ j →
      (cellAt s j).samples ≠ 0 →
      (((cellAt s j).part.get u).owned = true ∧ 1 < ((cellAt s j).part.get u).stale) →
      Clean s →
      CoreInv s →
      RangesInv s →
      ((cellAt s i).part.get u).reported = false →
      ∃ t, exec (.measReport (some u) fn [c]) s = .next t ∧ ((cellAt t i).part.get u).trigger = (if ((cellAt s j).level
        + 4 * (cellAt s j).offset + 4 * ((effParam s u).hoMargin : Int) < (cellAt t i).level + 4 * (cellAt s i).offset)
        then min (((cellAt s i).part.get u).trigger + 1) 15 else 0) ∧
        (((cellAt t i).part.get u).trigger < (effParam s u).timeToTrigger → queueOf t u = queueOf s u ∧
          t.mfu.resultsBuilt = s.mfu.resultsBuilt) ∧
        ((effParam s u).timeToTrigger ≤ ((cellAt t i).part.get u).trigger → (queueOf s u).length < 16 → queueOf t u =
          queueOf s u ++ [.measResult s.ftb.fn v.key ((cellAt s j).level / 4)
          [{ key := c.key, level := (cellAt t i).level / 4, triggered := true }]] ∧ t.mfu.resultsBuilt = satInc
          s.mfu.resultsBuilt ∧ ((cellAt t i).part.get u).reported = true))

/-- An ACQ_RESULT that reports a cell found and not barred, for a subscription in SEARCH whose named acquisition or
search it answers, the table not frozen and no entry holding a wrong position, makes it CAMPED: serving fields from
the result with the effective cycle, candidate key and search chain absent, an entry of the cell pinned SERVING and
not barred, and CAMPED posted with the cell's channel and code where the claims list and the queue have room. A COMMON
search result does so for each subscription in SEARCH with no candidate; a search result that reports no cell changes
nothing, and one of a barred cell writes its mark. The result of a reselection, found and not barred, keeps the
subscription CAMPED on the new cell, with its fields, pin and cleared mark, every trigger of the subscription at 0,
RESELECTED posted and counted. Not found (cause 0), barred (1, its mark written) or refused by the frozen table (3),
the reselection fails: serving fields kept, the penalty given where the candidate is held, RESELECT_FAILED posted and
counted. The acquisition of a SEARCH subscription's initial cell that ends so leaves it in SEARCH: candidate key
absent, REACQUIRE removed, no event posted, and the search chain started with a claim from the next frame on or joined
to that of the other. That camping by R10 clears the barred mark (log entry 22), and that a COMMON claim whose start
does not lie ahead is refused as late (log entry 29), is the model's reading. -/
def Obligations.CampingOnAFoundCell : Prop :=
  (∀ (r : AcqResult) (u : Sub) (s : State), acqInRange r = true →
      r.found = true →
      r.barred = false →
      r.owner = some (.sub u) →
      (s.sub u).state = .search →
      ((r.purpose = some .search ∧ (s.sub u).candidate = none) ∨ (r.purpose = some .reacquire ∧ (s.sub u).candidate =
        some r.key ∧ ∃ c ∈ s.rta.claims, c.kind = .reacquire ∧ c.owner = .sub u)) →
      s.ctb.frozen = false →
      Clean s →
      CoreInv s →
      ∃ t, exec (.acqResult r) s = .next t ∧ (t.sub u).state = .camped ∧
        (t.sub u).candidate = none ∧
        (t.pgm.recs.get u).chain = none ∧
        (t.sub u).serving = some
          { key := r.key, area := r.area, tCell := r.tCell, g := r.g, cycle := (if (effParam s u).prefCycle = 0 then r.tCell else min r.tCell (effParam s u).prefCycle) }
          ∧
        (∃ j < 64, (cellAt t j).valid = true ∧ (cellAt t j).serving.get u = true ∧ (cellAt t j).key = r.key ∧ (cellAt t
          j).barred = false) ∧
        (s.rta.claims.length < 16 → s.alc.events.length < 31 → postable s .camped → queued s t .camped (some u)
          r.key.channel r.key.code) ∧
        onlyChanges [.ftb, .rta, .subA, .subB, .global, .param, .eventClass, .ctb, .pgm, .hxu, .vpb, .alc, .tmc, .fl] s
          t) ∧
  (∀ (r : AcqResult) (u : Sub) (s : State), acqInRange r = true →
      r.owner = some (.sub u) →
      r.purpose = some .reacquire →
      (s.sub u).state = .camped →
      (s.sub u).reselecting = true →
      (s.sub u).candidate = some r.key →
      (∃ c ∈ s.rta.claims, c.kind = .reacquire ∧ c.owner = .sub u) →
      Clean s →
      CoreInv s →
      r.found = true →
      r.barred = false →
      s.ctb.frozen = false →
      ∃ t, exec (.acqResult r) s = .next t ∧ (t.sub u).state = .camped ∧
        (t.sub u).reselecting = false ∧
        (t.sub u).candidate = none ∧
        (t.sub u).serving = some
          { key := r.key, area := r.area, tCell := r.tCell, g := r.g, cycle := (if (effParam s u).prefCycle = 0 then r.tCell else min r.tCell (effParam s u).prefCycle) }
          ∧
        (∃ j < 64, (cellAt t j).valid = true ∧ (cellAt t j).serving.get u = true ∧ (cellAt t j).key = r.key ∧ (cellAt t
          j).barred = false) ∧
        (∀ j < 64, (cellAt t j).valid = true → ((cellAt t j).part.get u).trigger = 0 ∧ ((cellAt t j).part.get
          u).reported = false) ∧
        t.pgm.cnt.reselSucceeded = satInc s.pgm.cnt.reselSucceeded ∧
        (∀ c ∈ t.rta.claims, ¬(c.kind = .reacquire ∧ c.owner = .sub u)) ∧
        (s.alc.events.length < 31 → postable s .reselected → queued s t .reselected (some u) r.key.channel r.key.code)) ∧
  (∀ (r : AcqResult) (u : Sub) (cause : Nat) (s : State), acqInRange r = true →
      r.owner = some (.sub u) →
      r.purpose = some .reacquire →
      (s.sub u).state = .camped →
      (s.sub u).reselecting = true →
      (s.sub u).candidate = some r.key →
      (∃ c ∈ s.rta.claims, c.kind = .reacquire ∧ c.owner = .sub u) →
      Clean s →
      CoreInv s →
      ((r.found = false ∧ cause = 0) ∨ (r.found = true ∧ r.barred = true ∧ cause = 1) ∨ (r.found = true ∧ r.barred =
        false ∧ cause = 3 ∧ s.ctb.frozen = true ∧ ∀ i < 64, (cellAt s i).valid = true → (cellAt s i).key ≠ r.key)) →
      ∃ t, exec (.acqResult r) s = .next t ∧ (t.sub u).state = .camped ∧
        (t.sub u).reselecting = false ∧
        (t.sub u).candidate = none ∧
        (t.sub u).serving = (s.sub u).serving ∧
        t.pgm.cnt.reselFailed = satInc s.pgm.cnt.reselFailed ∧
        (∀ j < 64, (cellAt s j).valid = true → (cellAt s j).key = r.key → ((cellAt t j).part.get u).penalty = (effParam
          s u).penalty ∧ ((cellAt t j).part.get u).trigger = 0 ∧ (cellAt t j).barred = (if cause = 1 then true else
          (cellAt s j).barred)) ∧
        (postable s .reselectFailed → queued s t .reselectFailed (some u) cause r.key.channel)) ∧
  (∀ (r : AcqResult) (s : State), acqInRange r = true →
      r.found = true →
      r.barred = false →
      r.owner = some .common →
      r.purpose = some .search →
      (∃ u : Sub, (s.sub u).state = .search ∧ (s.sub u).candidate = none) →
      s.ctb.frozen = false →
      s.rta.claims.length < 15 →
      Clean s →
      CoreInv s →
      ∃ t, exec (.acqResult r) s = .next t ∧ (∀ u : Sub, (s.sub u).state = .search → (s.sub u).candidate = none → (t.sub
        u).state = .camped ∧ (t.pgm.recs.get u).chain = none ∧ (t.sub u).serving = some
        { key := r.key, area := r.area, tCell := r.tCell, g := r.g, cycle := (if (effParam s u).prefCycle = 0 then r.tCell else min r.tCell (effParam s u).prefCycle) })
        ∧
        (∀ u : Sub, (s.sub u).state = .search → (s.sub u).candidate = none → ∃ j < 64, (cellAt t j).valid = true ∧
          (cellAt t j).serving.get u = true ∧ (cellAt t j).key = r.key ∧ (cellAt t j).barred = false) ∧
        (∀ u : Sub, ((s.sub u).state ≠ .search ∨ (s.sub u).candidate.isSome = true) → t.sub u = s.sub u)) ∧
  (∀ (r : AcqResult) (s : State), r.found = false →
      r.purpose = some .search →
      ((r.owner = some .common ∧ ∃ u : Sub, (s.sub u).state = .search ∧ (s.sub u).candidate = none) ∨ ∃ u : Sub, r.owner
        = some (.sub u) ∧ (s.sub u).state = .search ∧ (s.sub u).candidate = none) →
      exec (.acqResult r) s = .next (pump s)) ∧
  (∀ (r : AcqResult) (s : State), acqInRange r = true →
      r.found = true →
      r.barred = true →
      r.purpose = some .search →
      ((r.owner = some .common ∧ ∃ u : Sub, (s.sub u).state = .search ∧ (s.sub u).candidate = none) ∨ ∃ u : Sub, r.owner
        = some (.sub u) ∧ (s.sub u).state = .search ∧ (s.sub u).candidate = none) →
      Clean s →
      ∃ t, exec (.acqResult r) s = .next t ∧ (∀ j < 64, (cellAt s j).valid = true → (cellAt s j).key = r.key → j / 4 =
        setOf r.key → (cellAt t j).valid = true ∧ (cellAt t j).barred = true) ∧
        onlyChanges [.ctb, .alc] s t) ∧
  (∀ (r : AcqResult) (u : Sub) (s : State), acqInRange r = true →
      r.owner = some (.sub u) →
      r.purpose = some .reacquire →
      (s.sub u).state = .search →
      (s.sub u).candidate = some r.key →
      (∃ c ∈ s.rta.claims, c.kind = .reacquire ∧ c.owner = .sub u) →
      Settled s →
      CoreInv s →
      (r.found = false ∨ r.barred = true ∨ (s.ctb.frozen = true ∧ ∀ i < 64, (cellAt s i).valid = true → (cellAt s i).key
        ≠ r.key)) →
      ∃ t, exec (.acqResult r) s = .next t ∧ t.sub u = { s.sub u with candidate := none } ∧
        (∀ c ∈ t.rta.claims, ¬(c.kind = .reacquire ∧ c.owner = .sub u)) ∧
        searchStarted u s t ∧
        t.alc.events = s.alc.events ∧
        (∀ j < 64, (cellAt s j).valid = true → (cellAt s j).key = r.key → (cellAt t j).barred = (if r.found = true then
          r.barred else (cellAt s j).barred)) ∧
        onlyChanges [.ftb, .rta, .subA, .subB, .ctb, .pgm, .alc, .fl] s t)

/-- Each of these only increments its counter: a PAGE naming neither subscription, for one not CAMPED, or not of its
read occasion; a MEAS_REPORT naming neither or for a DETACHED subscription; a SUMMARY out of range; an ACQ_RESULT out
of range; a REACQUIRE result not found, or found with its barred flag clear, for a subscription with no REACQUIRE or
with another candidate; a SYNC_STATUS naming neither, out of range, of no status, or for a DETACHED, SEARCH or CAMPED
subscription; an IDLE_TEXT naming neither or for a subscription that is not served, and a malformed one. That an
ACQ_RESULT out of range writes no barred mark (log entry 21), and that a discarded result with its flag clear makes no
look-up (log entry 54), is the model's reading. -/
def Obligations.IndicationsNotTaken : Prop :=
  (∀ (u : Option Sub) (fn : Nat) (items : List PageItem) (s : State), (∀ b : Sub, u = some b → (s.sub b).state ≠ .camped
    ∨ (s.pgm.recs.get b).readOccasion ≠ some fn) →
      exec (.page u fn items) s = .next (pump
        { s with pgm := { s.pgm with cnt := { s.pgm.cnt with pagesDiscarded := satInc s.pgm.cnt.pagesDiscarded } } })) ∧
  (∀ (u : Option Sub) (fn : Nat) (cells : List RawCell) (s : State), (∀ b : Sub, u = some b → (s.sub b).state =
    .detached) →
      exec (.measReport u fn cells) s = .next (pump
        { s with mfu := { s.mfu with discarded := satInc s.mfu.discarded } })) ∧
  (∀ (k : Key) (tCell g area : Nat) (barred : Bool) (s : State), (keyInRange k = false ∨ tCell ∉ [32, 64, 128, 256] ∨ g
    ∉ [1, 3, 5, 7]) →
      exec (.summary k tCell g area barred) s = .next (pump
        { s with pgm := { s.pgm with cnt := { s.pgm.cnt with summariesMalformed := satInc s.pgm.cnt.summariesMalformed } } }))
        ∧
  (∀ (r : AcqResult) (s : State), (r.owner = none ∨ r.purpose = none ∨ (r.found = true ∧ (keyInRange r.key = false ∨
    r.tCell ∉ [32, 64, 128, 256] ∨ r.g ∉ [1, 3, 5, 7]))) →
      exec (.acqResult r) s = .next (pump
        { s with pgm := { s.pgm with cnt := { s.pgm.cnt with resultsDiscarded := satInc s.pgm.cnt.resultsDiscarded } } }))
        ∧
  (∀ (r : AcqResult) (s : State), r.purpose = some .reacquire →
      (r.found = false ∨ r.barred = false) →
      (∀ b : Sub, r.owner = some (.sub b) → (s.sub b).candidate ≠ some r.key ∨ ∀ c ∈ s.rta.claims, ¬(c.kind = .reacquire
        ∧ c.owner = .sub b)) →
      exec (.acqResult r) s = .next (pump
        { s with pgm := { s.pgm with cnt := { s.pgm.cnt with resultsDiscarded := satInc s.pgm.cnt.resultsDiscarded } } }))
        ∧
  (∀ (u : Option Sub) (k : Key) (status : Option SyncResult) (timing : Nat) (s : State), (u = none ∨ status = none ∨
    keyInRange k = false ∨ ∀ b : Sub, u = some b → (s.sub b).state ∈ [.detached, .search, .camped]) →
      exec (.syncStatus u k status timing) s = .next (pump
        { s with hxu := { s.hxu with cnt := { s.hxu.cnt with syncsUnused := satInc s.hxu.cnt.syncsUnused } } })) ∧
  (∀ (u : Option Sub) (fn : Nat) (seg : RawSegment) (s : State), (∀ b : Sub, u = some b → (s.sub b).state ∈ [.detached,
    .search]) →
      exec (.idleText u fn seg) s = .next (pump
        { s with txs := { s.txs with cnt := { s.txs.cnt with discarded := satInc s.txs.cnt.discarded } } })) ∧
  (∀ (u : Sub) (fn : Nat) (seg : RawSegment) (s : State), (s.sub u).state ∉ [.detached, .search] →
      (seg.index = 0 ∨ 8 < seg.index ∨ seg.total = 0 ∨ 8 < seg.total ∨ seg.total < seg.index ∨ 152 < seg.payload.length
        ∨ seg.sender = [] ∨ 20 < seg.sender.length) →
      exec (.idleText (some u) fn seg) s = .next (pump
        { s with txs := { s.txs with cnt := { s.txs.cnt with malformed := satInc s.txs.cnt.malformed } } }))

/-- An IDLE_TEXT for a served subscription, well formed, permitted by screening, of no group held, with a free slot
and a free record and no entry holding a wrong position, is stored: one slot that was free holds it and the others are
as they were (which free slot is a free value, log entry 8), and the lowest-numbered free record holds its group. A
text of one segment is READY complete at the tail of the ready list, counted, with TEXT_READY posted; a longer one is
OPEN with the reassembly expiry. Of a group held: a segment of another total is a mismatch, one held already a
duplicate, acknowledged again without a slot, and one that a READY group lacks is late; each is counted, and mismatch
and late change nothing else. One that an OPEN group lacks joins it where a slot is free, the group becoming READY
with TEXT_READY when it is whole. With no slot, or for a new group no record, free, the segment is refused, the notice
state becomes FULL_SIGNALLED and STORE_FULL is posted with the two free counts unless it was so before; the store and
the other subscription are unchanged. One that screening blocks is only counted, and refused. The TEXT_ACK or
TEXT_REFUSE joins the REPLY of the reply window behind its items where the frame lies in the window's delivery and
that REPLY is undecided; where it then holds four items (a STORE_READY that the refusal withdraws makes room, log
entry 50), the answer is refused and counted lost; with no window, no delivery, a frame outside it, or a REPLY that
has been decided, it is unplaced and counted lost. That a REPLY whose GRANT a warm-up holds counts as decided is the
model's reading (log entry 48). Which bit of a screening word stands for a service code is the model's reading (log
entry 26). -/
def Obligations.IdleTextStored : Prop :=
  (∀ (u : Sub) (fn : Nat) (g : RawSegment) (s : State), (s.sub u).state ∉ [.detached, .search] →
      segmentShaped g = true →
      (g.service < (effParam s u).screenLen ∧ ((screenAt s (16 * u.code + g.service / 16)).damaged = true ∨ (screenAt s
        (16 * u.code + g.service / 16)).val.getLsbD (g.service % 16) = false)) →
      Clean s →
      s.txs.slots.length = 48 →
      s.txs.groups.length = 12 →
      (∀ i < 12, ∀ h ∈ (groupAt s i).toList, keyed u g h = false) →
      freeCount s ≠ 0 →
      freeRecords s ≠ 0 →
      ∃ t, exec (.idleText (some u) fn g) s = .next t ∧ t.txs.cnt.stored = satInc s.txs.cnt.stored ∧
        (∃ j < 48, s.txs.slots.getD j none = none ∧ t.txs.slots = s.txs.slots.set j (some
          { sub := u, sender := g.sender, reference := g.reference, index := g.index, total := g.total, service := g.service, arrival := s.ftb.fn, payload := g.payload }))
          ∧
        (∃ i < 12, groupAt s i = none ∧ (∀ j < i, groupAt s j ≠ none) ∧ (∀ j < 12, j ≠ i → groupAt t j = groupAt s j) ∧
          groupAt t i = some
          { sub := u, sender := g.sender, reference := g.reference, total := g.total, received := [g.index], state := (if g.total = 1 then .ready false else .opened (effParam s u).reassembly) }
          ∧ t.txs.ready = s.txs.ready ++ (if g.total = 1 then [i] else [])) ∧
        (g.total = 1 → postable s .textReady → queued s t .textReady (some u) g.reference 0) ∧
        t.txs.cnt.completed = (if g.total = 1 then satInc s.txs.cnt.completed else s.txs.cnt.completed) ∧
        idleAnswered u fn (.textAck u g.reference g.index) s t ∧
        onlyChanges [.rta, .pgm, .txs, .alc] s t) ∧
  (∀ (u : Sub) (fn : Nat) (g : RawSegment) (i : Nat) (h : Group) (n : Nat) (s : State), (s.sub u).state ∉ [.detached,
    .search] →
      segmentShaped g = true →
      (g.service < (effParam s u).screenLen ∧ ((screenAt s (16 * u.code + g.service / 16)).damaged = true ∨ (screenAt s
        (16 * u.code + g.service / 16)).val.getLsbD (g.service % 16) = false)) →
      Clean s →
      groupOf s u g i h →
      h.total = g.total →
      g.index ∉ h.received →
      h.state = .opened n →
      freeCount s ≠ 0 →
      s.txs.slots.length = 48 →
      ∃ t, exec (.idleText (some u) fn g) s = .next t ∧ t.txs.cnt.stored = satInc s.txs.cnt.stored ∧
        (∃ j < 48, s.txs.slots.getD j none = none ∧ t.txs.slots = s.txs.slots.set j (some
          { sub := u, sender := g.sender, reference := g.reference, index := g.index, total := g.total, service := g.service, arrival := s.ftb.fn, payload := g.payload }))
          ∧
        (∃ l : List Nat, l.length = h.received.length + 1 ∧ (∀ k, k ∈ l ↔ k = g.index ∨ k ∈ h.received) ∧ groupAt t i =
          some { h with received := l, state := if h.received.length + 1 = g.total then .ready false else .opened n }) ∧
        (∀ j < 12, j ≠ i → groupAt t j = groupAt s j) ∧
        t.txs.ready = s.txs.ready ++ (if h.received.length + 1 = g.total then [i] else []) ∧
        t.txs.cnt.completed = (if h.received.length + 1 = g.total then satInc s.txs.cnt.completed else
          s.txs.cnt.completed) ∧
        (h.received.length + 1 = g.total → postable s .textReady → queued s t .textReady (some u) g.reference 0) ∧
        idleAnswered u fn (.textAck u g.reference g.index) s t ∧
        onlyChanges [.rta, .pgm, .txs, .alc] s t) ∧
  (∀ (u : Sub) (fn : Nat) (g : RawSegment) (i : Nat) (h : Group) (s : State), (s.sub u).state ∉ [.detached, .search] →
      segmentShaped g = true →
      (g.service < (effParam s u).screenLen ∧ ((screenAt s (16 * u.code + g.service / 16)).damaged = true ∨ (screenAt s
        (16 * u.code + g.service / 16)).val.getLsbD (g.service % 16) = false)) →
      Clean s →
      groupOf s u g i h →
      h.total = g.total →
      g.index ∈ h.received →
      ∃ t, exec (.idleText (some u) fn g) s = .next t ∧ t.txs.slots = s.txs.slots ∧
        t.txs.groups = s.txs.groups ∧
        t.txs.ready = s.txs.ready ∧
        t.txs.cnt = { s.txs.cnt with duplicates := satInc s.txs.cnt.duplicates, answersLost := t.txs.cnt.answersLost } ∧
        t.alc.events = s.alc.events ∧
        idleAnswered u fn (.textAck u g.reference g.index) s t ∧
        onlyChanges [.rta, .pgm, .txs, .alc] s t) ∧
  (∀ (u : Sub) (fn : Nat) (g : RawSegment) (i : Nat) (h : Group) (s : State), (s.sub u).state ∉ [.detached, .search] →
      segmentShaped g = true →
      (g.service < (effParam s u).screenLen ∧ ((screenAt s (16 * u.code + g.service / 16)).damaged = true ∨ (screenAt s
        (16 * u.code + g.service / 16)).val.getLsbD (g.service % 16) = false)) →
      Clean s →
      groupOf s u g i h →
      h.total ≠ g.total →
      exec (.idleText (some u) fn g) s = .next (pump
        { s with txs := { s.txs with cnt := { s.txs.cnt with mismatches := satInc s.txs.cnt.mismatches } } })) ∧
  (∀ (u : Sub) (fn : Nat) (g : RawSegment) (i : Nat) (h : Group) (s : State), (s.sub u).state ∉ [.detached, .search] →
      segmentShaped g = true →
      (g.service < (effParam s u).screenLen ∧ ((screenAt s (16 * u.code + g.service / 16)).damaged = true ∨ (screenAt s
        (16 * u.code + g.service / 16)).val.getLsbD (g.service % 16) = false)) →
      Clean s →
      groupOf s u g i h →
      h.total = g.total →
      g.index ∉ h.received →
      isOpen h = false →
      exec (.idleText (some u) fn g) s = .next (pump
        { s with txs := { s.txs with cnt := { s.txs.cnt with late := satInc s.txs.cnt.late } } })) ∧
  (∀ (u : Sub) (fn : Nat) (g : RawSegment) (s : State), (s.sub u).state ∉ [.detached, .search] →
      segmentShaped g = true →
      (g.service < (effParam s u).screenLen ∧ ((screenAt s (16 * u.code + g.service / 16)).damaged = true ∨ (screenAt s
        (16 * u.code + g.service / 16)).val.getLsbD (g.service % 16) = false)) →
      Clean s →
      storeFullFor s u g →
      ∃ t, exec (.idleText (some u) fn g) s = .next t ∧ t.txs.slots = s.txs.slots ∧
        t.txs.groups = s.txs.groups ∧
        t.txs.ready = s.txs.ready ∧
        t.txs.cnt.storeFull = satInc s.txs.cnt.storeFull ∧
        t.txs.cnt.stored = s.txs.cnt.stored ∧
        (t.sub u).notice = .fullSignalled ∧
        t.sub u.other = s.sub u.other ∧
        ((s.sub u).notice ≠ .fullSignalled → postable s .storeFull → queued s t .storeFull (some u) (freeCount s : Nat)
          (freeRecords s : Nat)) ∧
        ((s.sub u).notice = .fullSignalled → t.alc.events = s.alc.events) ∧
        idleAnswered u fn (.refuseSegment u 1 g.reference g.index) s t ∧
        onlyChanges [.rta, subPart u, .pgm, .txs, .alc] s t) ∧
  (∀ (u : Sub) (fn : Nat) (g : RawSegment) (s : State), (s.sub u).state ∉ [.detached, .search] →
      segmentShaped g = true →
      ¬(g.service < (effParam s u).screenLen ∧ ((screenAt s (16 * u.code + g.service / 16)).damaged = true ∨ (screenAt s
        (16 * u.code + g.service / 16)).val.getLsbD (g.service % 16) = false)) →
      Clean s →
      ∃ t, exec (.idleText (some u) fn g) s = .next t ∧ t.txs =
        { s.txs with cnt := { s.txs.cnt with screened := satInc s.txs.cnt.screened, answersLost := t.txs.cnt.answersLost } }
        ∧
        t.alc.events = s.alc.events ∧
        idleAnswered u fn (.refuseSegment u 0 g.reference g.index) s t ∧
        onlyChanges [.rta, .pgm, .txs, .alc] s t)

/-- LINK_GRANT for a CONNECTING subscription makes it CONNECTED with the guard absent, its standing claim kept; the
frame is then forwarded. For another state, or naming neither subscription, it is only forwarded. -/
def Obligations.LinkGrantConnects : Prop :=
  (∀ (u : Sub) (body : Octets) (s : State), (s.sub u).state = .connecting →
      ∃ t, exec (.linkGrant (some u) body) s = .next t ∧ (t.sub u).state = .connected ∧
        (t.sub u).guard = none ∧
        t.rta.connected = s.rta.connected ∧
        (s.alc.up = true → forwardedUp (.control (some u) (.linkGrant body)) s t) ∧
        onlyChanges [.ftb, .rta, .subA, .subB, .global, .param, .eventClass, .ctb, .pgm, .hxu, .brt, .vpb, .alc, .tmc,
          .fl] s t) ∧
  (∀ (u : Sub) (body : Octets) (s : State), (s.sub u).state ≠ .connecting →
      exec (.linkGrant (some u) body) s = .next (pump (forward (.control (some u) (.linkGrant body)) s))) ∧
  (∀ (body : Octets) (s : State), exec (.linkGrant none body) s = .next (pump (forward (.control none (.linkGrant body))
    s)))

/-- An honoured CLOSE closes an open RADIO_LOOP with the named subscription as loop subscription, and an honoured OPEN
opens a closed one; the change is posted for the loop subscription with arguments 1 and the new state. An honoured
order that leaves the state as it was changes nothing. An order naming neither subscription, for one with accept loop
orders off (PARAM read clean), or for one without a link is forwarded and counted, with the loop as it was. -/
def Obligations.LoopOrderHandled : Prop :=
  (∀ (u : Sub) (s : State), (s.tab.param.get u).sound = true →
      (effParam s u).acceptLoop = true →
      (s.sub u).state ∈ [.connecting, .connected, .handover] →
      s.vpb.radioLoop = none →
      ∃ t, exec (.loopOrder (some u) true) s = .next t ∧ t.vpb = { s.vpb with radioLoop := some u } ∧
        (postable s .loopChanged → queued s t .loopChanged (some u) 1 1) ∧
        forwardTrail t.alc = forwardTrail s.alc ∧
        onlyChanges [.vpb, .alc, .eventClass, .tmc] s t) ∧
  (∀ (u : Sub) (b : Sub) (s : State), (s.tab.param.get u).sound = true →
      (effParam s u).acceptLoop = true →
      (s.sub u).state ∈ [.connecting, .connected, .handover] →
      s.vpb.radioLoop = some b →
      ∃ t, exec (.loopOrder (some u) false) s = .next t ∧ t.vpb = { s.vpb with radioLoop := none } ∧
        (postable s .loopChanged → queued s t .loopChanged (some b) 1 0) ∧
        forwardTrail t.alc = forwardTrail s.alc ∧
        onlyChanges [.vpb, .alc, .eventClass, .tmc] s t) ∧
  (∀ (u : Sub) (close : Bool) (s : State), (s.tab.param.get u).sound = true →
      (effParam s u).acceptLoop = true →
      (s.sub u).state ∈ [.connecting, .connected, .handover] →
      s.vpb.radioLoop.isSome = close →
      exec (.loopOrder (some u) close) s = .next (pump s)) ∧
  (∀ (u : Sub) (close : Bool) (s : State), (s.tab.param.get u).sound = true →
      ((effParam s u).acceptLoop = false ∨ (s.sub u).state ∈ [.detached, .search, .camped]) →
      exec (.loopOrder (some u) close) s = .next (pump (forward (.control (some u) (.loopOrder close))
        { s with vpb := { s.vpb with cnt := { s.vpb.cnt with ordersRefused := satInc s.vpb.cnt.ordersRefused } } }))) ∧
  (∀ (close : Bool) (s : State), exec (.loopOrder none close) s = .next (pump (forward (.control none (.loopOrder
    close)) { s with vpb := { s.vpb with cnt := { s.vpb.cnt with ordersRefused := satInc s.vpb.cnt.ordersRefused } } })))

/-- With the link UP, a downlink control frame of another code, and TRAFFIC of the entry's owner on a live SIGNAL or
DATA bearer, join the forwarded frames in order or are counted lost when 32 wait. TRAFFIC on an entry marked damaged
is passed raw, whatever its subscription, and counted. TRAFFIC naming neither subscription, with a bearer id above 31,
or on a bearer that is IDLE or another's, is discarded and counted. With the link DOWN a forwarded frame (CONTROL,
SIGNAL, DATA or raw) is counted as lost, and the loss announced with the frame's subscription, kind and bearer id once
while the mark stands clear. TRAFFIC of the owner on a live TEXT bearer is a text segment: one that does not read as a
segment is malformed; one that screening refuses is counted and its TEXT_REFUSE, one of a new group that finds a free
slot and record is stored and its TEXT_ACK, joins the owner's uplink queue where that has room; so does the TEXT_ACK
of one that joins an OPEN group and of a duplicate, and the TEXT_REFUSE of one that finds the store full, with the
effects of the idle path (which bit of a screening word stands for a service code is the model's reading, log entry
26). -/
def Obligations.DownlinkForwarding : Prop :=
  (∀ (u : Option Sub) (code : Nat) (body : Octets) (s : State), s.alc.up = true →
      ∃ t, exec (.downlinkControlOther u code body) s = .next t ∧ forwardedUp (.control u (.other code body)) s t ∧
        onlyChanges [.alc] s t ∧
        t.alc.events = s.alc.events ∧
        responseTrail t.alc = responseTrail s.alc) ∧
  (∀ (u : Option Sub) (code : Nat) (body : Octets) (s : State), s.alc.up = false →
      ∃ t, exec (.downlinkControlOther u code body) s = .next t ∧ t.brt =
        { s.brt with lossAnnounced := true, cnt := { s.brt.cnt with alDownLosses := satInc s.brt.cnt.alDownLosses } } ∧
        (s.brt.lossAnnounced = true → t.alc = s.alc) ∧
        (s.brt.lossAnnounced = false → postable s .linkDownLoss → queued s t .linkDownLoss u 2 0) ∧
        onlyChanges [.brt, .alc, .eventClass, .tmc] s t) ∧
  (∀ (u : Sub) (i seq : Nat) (payload : Octets) (text : Option RawSegment) (s : State), s.alc.up = true →
      i < 32 →
      (bearerAt s i).damaged = false →
      (bearerAt s i).check = .good →
      (bearerAt s i).val.state ≠ .idle →
      (bearerAt s i).val.owner = u →
      (bearerAt s i).val.cls ∈ [.signal, .data] →
      ∃ t, exec (.downlinkTraffic (some u) i seq payload text) s = .next t ∧ forwardedUp (.traffic u (decide ((bearerAt
        s i).val.cls = .data)) i payload) s t ∧
        onlyChanges [.alc] s t ∧
        t.alc.events = s.alc.events) ∧
  (∀ (u : Sub) (i seq : Nat) (payload : Octets) (text : Option RawSegment) (s : State), s.alc.up = true →
      i < 32 →
      (bearerAt s i).damaged = true →
      ∃ t, exec (.downlinkTraffic (some u) i seq payload text) s = .next t ∧ forwardedUp (.raw (some u) i seq payload) s
        t ∧
        onlyChanges [.alc, .brt] s t ∧
        t.brt = { s.brt with cnt := { s.brt.cnt with rawRouted := satInc s.brt.cnt.rawRouted } }) ∧
  (∀ (u : Sub) (i seq : Nat) (payload : Octets) (text : Option RawSegment) (s : State), i < 32 →
      (bearerAt s i).damaged = false →
      (bearerAt s i).check = .good →
      ((bearerAt s i).val.state = .idle ∨ (bearerAt s i).val.owner ≠ u) →
      exec (.downlinkTraffic (some u) i seq payload text) s = .next (pump
        { s with brt := { s.brt with cnt := { s.brt.cnt with downDiscards := satInc s.brt.cnt.downDiscards } } })) ∧
  (∀ (u : Option Sub) (i seq : Nat) (payload : Octets) (text : Option RawSegment) (s : State), (u = none ∨ 31 < i) →
      exec (.downlinkTraffic u i seq payload text) s = .next (pump
        { s with brt := { s.brt with cnt := { s.brt.cnt with downDiscards := satInc s.brt.cnt.downDiscards } } })) ∧
  (∀ (u : Sub) (i seq : Nat) (payload : Octets) (text : Option RawSegment) (s : State), i < 32 →
      (bearerAt s i).damaged = false →
      (bearerAt s i).check = .good →
      (bearerAt s i).val.state ≠ .idle →
      (bearerAt s i).val.owner = u →
      (bearerAt s i).val.cls = .text →
      text.all (fun g => !segmentShaped g) = true →
      exec (.downlinkTraffic (some u) i seq payload text) s = .next (pump
        { s with txs := { s.txs with cnt := { s.txs.cnt with malformed := satInc s.txs.cnt.malformed } } })) ∧
  (∀ (u : Sub) (i seq : Nat) (payload : Octets) (g : RawSegment) (s : State), i < 32 →
      (bearerAt s i).damaged = false →
      (bearerAt s i).check = .good →
      (bearerAt s i).val.state ≠ .idle →
      (bearerAt s i).val.owner = u →
      (bearerAt s i).val.cls = .text →
      segmentShaped g = true →
      ¬(g.service < (effParam s u).screenLen ∧ ((screenAt s (16 * u.code + g.service / 16)).damaged = true ∨ (screenAt s
        (16 * u.code + g.service / 16)).val.getLsbD (g.service % 16) = false)) →
      Clean s →
      (queueOf s u).length < 16 →
      ∃ t, exec (.downlinkTraffic (some u) i seq payload (some g)) s = .next t ∧ t.brt =
        { s.brt with queues := s.brt.queues.set u (queueOf s u ++ [.textRefuse 0 g.reference g.index]) } ∧
        t.txs = { s.txs with cnt := { s.txs.cnt with screened := satInc s.txs.cnt.screened } } ∧
        onlyChanges [.brt, .txs, .alc] s t) ∧
  (∀ (u : Sub) (i seq : Nat) (payload : Octets) (g : RawSegment) (s : State), i < 32 →
      (bearerAt s i).damaged = false →
      (bearerAt s i).check = .good →
      (bearerAt s i).val.state ≠ .idle →
      (bearerAt s i).val.owner = u →
      (bearerAt s i).val.cls = .text →
      segmentShaped g = true →
      (g.service < (effParam s u).screenLen ∧ ((screenAt s (16 * u.code + g.service / 16)).damaged = true ∨ (screenAt s
        (16 * u.code + g.service / 16)).val.getLsbD (g.service % 16) = false)) →
      Clean s →
      s.txs.slots.length = 48 →
      s.txs.groups.length = 12 →
      (∀ i < 12, ∀ h ∈ (groupAt s i).toList, keyed u g h = false) →
      freeCount s ≠ 0 →
      freeRecords s ≠ 0 →
      (queueOf s u).length < 16 →
      ∃ t, exec (.downlinkTraffic (some u) i seq payload (some g)) s = .next t ∧ t.brt =
        { s.brt with queues := s.brt.queues.set u (queueOf s u ++ [.textAck g.reference g.index]) } ∧
        t.txs.cnt.stored = satInc s.txs.cnt.stored ∧
        freeCount t = freeCount s - 1 ∧
        freeRecords t = freeRecords s - 1 ∧
        onlyChanges [.brt, .txs, .alc] s t) ∧
  (∀ (u : Sub) (i seq : Nat) (payload : Octets) (text : Option RawSegment) (s : State), s.alc.up = false →
      i < 32 →
      (bearerAt s i).damaged = false →
      (bearerAt s i).check = .good →
      (bearerAt s i).val.state ≠ .idle →
      (bearerAt s i).val.owner = u →
      (bearerAt s i).val.cls ∈ [.signal, .data] →
      ∃ t, exec (.downlinkTraffic (some u) i seq payload text) s = .next t ∧ t.brt =
        { s.brt with lossAnnounced := true, cnt := { s.brt.cnt with alDownLosses := satInc s.brt.cnt.alDownLosses } } ∧
        (s.brt.lossAnnounced = true → t.alc = s.alc) ∧
        (s.brt.lossAnnounced = false → postable s .linkDownLoss → queued s t .linkDownLoss (some u) (if (bearerAt s
          i).val.cls = .data then 1 else 0) i) ∧
        onlyChanges [.brt, .alc, .eventClass, .tmc] s t) ∧
  (∀ (u : Sub) (i seq : Nat) (payload : Octets) (text : Option RawSegment) (s : State), s.alc.up = false →
      i < 32 →
      (bearerAt s i).damaged = true →
      ∃ t, exec (.downlinkTraffic (some u) i seq payload text) s = .next t ∧ t.brt =
        { s.brt with lossAnnounced := true, cnt := { s.brt.cnt with alDownLosses := satInc s.brt.cnt.alDownLosses, rawRouted := satInc s.brt.cnt.rawRouted } }
        ∧
        (s.brt.lossAnnounced = true → t.alc = s.alc) ∧
        (s.brt.lossAnnounced = false → postable s .linkDownLoss → queued s t .linkDownLoss (some u) 3 i) ∧
        onlyChanges [.brt, .alc, .eventClass, .tmc] s t) ∧
  (∀ (u : Sub) (k seq : Nat) (payload : Octets) (g : RawSegment) (i : Nat) (h : Group) (n : Nat) (s : State), k < 32 →
      (bearerAt s k).damaged = false →
      (bearerAt s k).check = .good →
      (bearerAt s k).val.state ≠ .idle →
      (bearerAt s k).val.owner = u →
      (bearerAt s k).val.cls = .text →
      segmentShaped g = true →
      (g.service < (effParam s u).screenLen ∧ ((screenAt s (16 * u.code + g.service / 16)).damaged = true ∨ (screenAt s
        (16 * u.code + g.service / 16)).val.getLsbD (g.service % 16) = false)) →
      Clean s →
      (queueOf s u).length < 16 →
      groupOf s u g i h →
      h.total = g.total →
      g.index ∉ h.received →
      h.state = .opened n →
      freeCount s ≠ 0 →
      s.txs.slots.length = 48 →
      ∃ t, exec (.downlinkTraffic (some u) k seq payload (some g)) s = .next t ∧ t.brt =
        { s.brt with queues := s.brt.queues.set u (queueOf s u ++ [.textAck g.reference g.index]) } ∧
        t.txs.cnt.stored = satInc s.txs.cnt.stored ∧
        (∃ j < 48, s.txs.slots.getD j none = none ∧ t.txs.slots = s.txs.slots.set j (some
          { sub := u, sender := g.sender, reference := g.reference, index := g.index, total := g.total, service := g.service, arrival := s.ftb.fn, payload := g.payload }))
          ∧
        (∃ l : List Nat, l.length = h.received.length + 1 ∧ (∀ k, k ∈ l ↔ k = g.index ∨ k ∈ h.received) ∧ groupAt t i =
          some { h with received := l, state := if h.received.length + 1 = g.total then .ready false else .opened n }) ∧
        (∀ j < 12, j ≠ i → groupAt t j = groupAt s j) ∧
        t.txs.ready = s.txs.ready ++ (if h.received.length + 1 = g.total then [i] else []) ∧
        t.txs.cnt.completed = (if h.received.length + 1 = g.total then satInc s.txs.cnt.completed else
          s.txs.cnt.completed) ∧
        (h.received.length + 1 = g.total → postable s .textReady → queued s t .textReady (some u) g.reference 0) ∧
        onlyChanges [.brt, .txs, .alc] s t) ∧
  (∀ (u : Sub) (k seq : Nat) (payload : Octets) (g : RawSegment) (i : Nat) (h : Group) (s : State), k < 32 →
      (bearerAt s k).damaged = false →
      (bearerAt s k).check = .good →
      (bearerAt s k).val.state ≠ .idle →
      (bearerAt s k).val.owner = u →
      (bearerAt s k).val.cls = .text →
      segmentShaped g = true →
      (g.service < (effParam s u).screenLen ∧ ((screenAt s (16 * u.code + g.service / 16)).damaged = true ∨ (screenAt s
        (16 * u.code + g.service / 16)).val.getLsbD (g.service % 16) = false)) →
      Clean s →
      (queueOf s u).length < 16 →
      groupOf s u g i h →
      h.total = g.total →
      g.index ∈ h.received →
      ∃ t, exec (.downlinkTraffic (some u) k seq payload (some g)) s = .next t ∧ t.brt =
        { s.brt with queues := s.brt.queues.set u (queueOf s u ++ [.textAck g.reference g.index]) } ∧
        t.txs = { s.txs with cnt := { s.txs.cnt with duplicates := satInc s.txs.cnt.duplicates } } ∧
        onlyChanges [.brt, .txs, .alc] s t) ∧
  (∀ (u : Sub) (k seq : Nat) (payload : Octets) (g : RawSegment) (s : State), k < 32 →
      (bearerAt s k).damaged = false →
      (bearerAt s k).check = .good →
      (bearerAt s k).val.state ≠ .idle →
      (bearerAt s k).val.owner = u →
      (bearerAt s k).val.cls = .text →
      segmentShaped g = true →
      (g.service < (effParam s u).screenLen ∧ ((screenAt s (16 * u.code + g.service / 16)).damaged = true ∨ (screenAt s
        (16 * u.code + g.service / 16)).val.getLsbD (g.service % 16) = false)) →
      Clean s →
      (queueOf s u).length < 16 →
      storeFullFor s u g →
      ∃ t, exec (.downlinkTraffic (some u) k seq payload (some g)) s = .next t ∧ queueOf t u = queueOf s u ++
        [.textRefuse 1 g.reference g.index] ∧
        queueOf t u.other = queueOf s u.other ∧
        t.txs.slots = s.txs.slots ∧
        t.txs.groups = s.txs.groups ∧
        t.txs.ready = s.txs.ready ∧
        t.txs.cnt.storeFull = satInc s.txs.cnt.storeFull ∧
        t.txs.cnt.stored = s.txs.cnt.stored ∧
        (t.sub u).notice = .fullSignalled ∧
        t.sub u.other = s.sub u.other ∧
        ((s.sub u).notice ≠ .fullSignalled → postable s .storeFull → queued s t .storeFull (some u) (freeCount s : Nat)
          (freeRecords s : Nat)) ∧
        ((s.sub u).notice = .fullSignalled → t.alc.events = s.alc.events))

/-- TRAFFIC of the owner on a live VOICE bearer, with both loops open: in ARMED it enters the empty buffer and sets
next-to-play; after that a frame at a distance of 128 or more is late, one whose sequence is held is a duplicate, and
one that finds room is held; in a full buffer one frame is dropped and counted, so that the buffer keeps its length:
by the invariant of the buffer it is the one at the smallest distance of the held and the new, and next-to-play
becomes the sequence after its. With only RADIO_LOOP closed the frame goes to the playout buffer as with both open,
and is also made the pending uplink frame with its own sequence, an older one being discarded and counted; with both
closed it is made the pending uplink frame and not offered to the buffer. With only CODEC_LOOP closed the frame is
discarded and counted; while INACTIVE it is discarded uncounted. -/
def Obligations.DownlinkVoiceBuffered : Prop :=
  (∀ (u : Sub) (i q : Nat) (payload : Octets) (text : Option RawSegment) (p : Playout) (s : State), i < 32 →
      (bearerAt s i).damaged = false →
      (bearerAt s i).check = .good →
      (bearerAt s i).val.state ≠ .idle →
      (bearerAt s i).val.owner = u →
      (bearerAt s i).val.cls = .voice →
      q < 256 →
      s.vpb.codecLoop = false →
      s.vpb.radioLoop = none →
      s.vpb.play = some p →
      p.phase = .armed →
      ∃ t, exec (.downlinkTraffic (some u) i q payload text) s = .next t ∧ t.vpb =
        { s.vpb with play := some { p with buffer := [{ seq := q, payload := payload }], phase := (if p.depth / 2 ≤ 1 then .playing q else .prefill q) } }
        ∧
        onlyChanges [.vpb, .alc] s t) ∧
  (∀ (u : Sub) (i q : Nat) (payload : Octets) (text : Option RawSegment) (p : Playout) (n : Nat) (s : State), i < 32 →
      (bearerAt s i).damaged = false →
      (bearerAt s i).check = .good →
      (bearerAt s i).val.state ≠ .idle →
      (bearerAt s i).val.owner = u →
      (bearerAt s i).val.cls = .voice →
      q < 256 →
      s.vpb.codecLoop = false →
      s.vpb.radioLoop = none →
      s.vpb.play = some p →
      p.phase.next = some n →
      128 ≤ (q + 256 - n % 256) % 256 →
      exec (.downlinkTraffic (some u) i q payload text) s = .next (pump
        { s with vpb := { s.vpb with cnt := { s.vpb.cnt with late := satInc s.vpb.cnt.late } } })) ∧
  (∀ (u : Sub) (i q : Nat) (payload : Octets) (text : Option RawSegment) (p : Playout) (n : Nat) (s : State), i < 32 →
      (bearerAt s i).damaged = false →
      (bearerAt s i).check = .good →
      (bearerAt s i).val.state ≠ .idle →
      (bearerAt s i).val.owner = u →
      (bearerAt s i).val.cls = .voice →
      q < 256 →
      s.vpb.codecLoop = false →
      s.vpb.radioLoop = none →
      s.vpb.play = some p →
      p.phase.next = some n →
      (q + 256 - n % 256) % 256 < 128 →
      (∃ f ∈ p.buffer, f.seq = q) →
      exec (.downlinkTraffic (some u) i q payload text) s = .next (pump
        { s with vpb := { s.vpb with cnt := { s.vpb.cnt with duplicate := satInc s.vpb.cnt.duplicate } } })) ∧
  (∀ (u : Sub) (i q : Nat) (payload : Octets) (text : Option RawSegment) (p : Playout) (n : Nat) (s : State), i < 32 →
      (bearerAt s i).damaged = false →
      (bearerAt s i).check = .good →
      (bearerAt s i).val.state ≠ .idle →
      (bearerAt s i).val.owner = u →
      (bearerAt s i).val.cls = .voice →
      q < 256 →
      s.vpb.codecLoop = false →
      s.vpb.radioLoop = none →
      s.vpb.play = some p →
      p.phase.next = some n →
      (q + 256 - n % 256) % 256 < 128 →
      (∀ f ∈ p.buffer, f.seq ≠ q) →
      p.buffer.length < p.depth →
      ∃ t, exec (.downlinkTraffic (some u) i q payload text) s = .next t ∧ t.vpb.cnt = s.vpb.cnt ∧
        t.vpb.play.map (fun x => x.buffer.length) = some (p.buffer.length + 1) ∧
        (∀ x ∈ t.vpb.play.toList, ({ seq := q, payload := payload } : VoiceFrame) ∈ x.buffer ∧ (∀ f ∈ p.buffer, f ∈
          x.buffer) ∧ x.phase.next = some n) ∧
        onlyChanges [.vpb, .alc] s t) ∧
  (∀ (u : Sub) (i q : Nat) (payload : Octets) (text : Option RawSegment) (p : Playout) (n : Nat) (s : State), i < 32 →
      (bearerAt s i).damaged = false →
      (bearerAt s i).check = .good →
      (bearerAt s i).val.state ≠ .idle →
      (bearerAt s i).val.owner = u →
      (bearerAt s i).val.cls = .voice →
      q < 256 →
      s.vpb.codecLoop = false →
      s.vpb.radioLoop = none →
      s.vpb.play = some p →
      p.phase.next = some n →
      (q + 256 - n % 256) % 256 < 128 →
      (∀ f ∈ p.buffer, f.seq ≠ q) →
      p.depth ≤ p.buffer.length →
      ∃ t, exec (.downlinkTraffic (some u) i q payload text) s = .next t ∧ t.vpb.cnt =
        { s.vpb.cnt with overflow := satInc s.vpb.cnt.overflow } ∧
        t.vpb.play.map (fun x => x.buffer.length) = some p.buffer.length ∧
        (PlayoutInv s → ∃ g ∈ ({ seq := q, payload := payload } : VoiceFrame) :: p.buffer, (∀ f ∈
          ({ seq := q, payload := payload } : VoiceFrame) :: p.buffer, (g.seq + 256 - n % 256) % 256 ≤ (f.seq + 256 - n
          % 256) % 256) ∧ t.vpb.play.map (fun x => x.phase.next) = some (some ((g.seq + 1) % 256)) ∧ ∀ x ∈
          t.vpb.play.toList, ∀ f : VoiceFrame, f ∈ x.buffer ↔ f ≠ g ∧ (f = { seq := q, payload := payload } ∨ f ∈
          p.buffer)) ∧
        onlyChanges [.vpb, .alc] s t) ∧
  (∀ (u : Sub) (i q : Nat) (payload : Octets) (text : Option RawSegment) (s : State), i < 32 →
      (bearerAt s i).damaged = false →
      (bearerAt s i).check = .good →
      (bearerAt s i).val.state ≠ .idle →
      (bearerAt s i).val.owner = u →
      (bearerAt s i).val.cls = .voice →
      q < 256 →
      s.vpb.codecLoop = true →
      s.vpb.radioLoop = none →
      s.vpb.play.isSome = true →
      exec (.downlinkTraffic (some u) i q payload text) s = .next (pump
        { s with vpb := { s.vpb with cnt := { s.vpb.cnt with loopDiscards := satInc s.vpb.cnt.loopDiscards } } })) ∧
  (∀ (u : Sub) (i q : Nat) (payload : Octets) (text : Option RawSegment) (s : State), i < 32 →
      (bearerAt s i).damaged = false →
      (bearerAt s i).check = .good →
      (bearerAt s i).val.state ≠ .idle →
      (bearerAt s i).val.owner = u →
      (bearerAt s i).val.cls = .voice →
      q < 256 →
      s.vpb.play = none →
      exec (.downlinkTraffic (some u) i q payload text) s = .next (pump s)) ∧
  (∀ (u : Sub) (i q : Nat) (payload : Octets) (text : Option RawSegment) (b : Sub) (s : State), i < 32 →
      (bearerAt s i).damaged = false →
      (bearerAt s i).check = .good →
      (bearerAt s i).val.state ≠ .idle →
      (bearerAt s i).val.owner = u →
      (bearerAt s i).val.cls = .voice →
      q < 256 →
      s.vpb.codecLoop = true →
      s.vpb.radioLoop = some b →
      s.vpb.play.isSome = true →
      exec (.downlinkTraffic (some u) i q payload text) s = .next (pump
        { s with vpb := { s.vpb with pendingUp := some { seq := q, payload := payload }, cnt := { s.vpb.cnt with upDiscarded := if s.vpb.pendingUp.isSome = true then satInc s.vpb.cnt.upDiscarded else s.vpb.cnt.upDiscarded } } }))
        ∧
  (∀ (u : Sub) (i q : Nat) (payload : Octets) (text : Option RawSegment) (b : Sub) (s : State), i < 32 →
      (bearerAt s i).damaged = false →
      (bearerAt s i).check = .good →
      (bearerAt s i).val.state ≠ .idle →
      (bearerAt s i).val.owner = u →
      (bearerAt s i).val.cls = .voice →
      q < 256 →
      s.vpb.codecLoop = false →
      s.vpb.radioLoop = some b →
      s.vpb.play.isSome = true →
      ∃ t, exec (.downlinkTraffic (some u) i q payload text) s = .next t ∧ t.vpb.pendingUp = some
        { seq := q, payload := payload } ∧
        t.vpb.cnt.upDiscarded = (if s.vpb.pendingUp.isSome = true then satInc s.vpb.cnt.upDiscarded else
          s.vpb.cnt.upDiscarded) ∧
        t.vpb.radioLoop = some b ∧
        (∃ x, exec (.downlinkTraffic (some u) i q payload text) { s with vpb := { s.vpb with radioLoop := none } } =
          .next x ∧ t.vpb.play = x.vpb.play ∧ t.vpb.cnt = { x.vpb.cnt with upDiscarded := t.vpb.cnt.upDiscarded }) ∧
        onlyChanges [.vpb, .alc] s t)

/-- With the link UP: TRAFFIC of its owner on a live bearer that is not VOICE, and CONTROL of a subscription that
holds a link, join the tail of the subscription's uplink queue, or are counted by its queue-full counter when 16
frames wait. TRAFFIC on an entry marked damaged joins the queue of a subscription that holds a link, counted as raw
routed (log entry 32). TRAFFIC that names neither subscription, a bearer id above 31, an IDLE or VOICE bearer or
another's, and CONTROL that names neither or a subscription without a link, are counted as uplink discards. A frame
whose check fails, and a malformed one, are counted and not answered; that a frame shorter than its body length says
is malformed is the model's reading (log entry 19). -/
def Obligations.UplinkFramesQueued : Prop :=
  (∀ (u : Sub) (i : Nat) (payload : Octets) (s : State), s.alc.up = true →
      i < 32 →
      (bearerAt s i).damaged = false →
      (bearerAt s i).check = .good →
      (bearerAt s i).val.state ≠ .idle →
      (bearerAt s i).val.owner = u →
      (bearerAt s i).val.cls ≠ .voice →
      (queueOf s u).length < 16 →
      exec (.uplinkTraffic (some u) i payload) s = .next (pump
        { s with brt := { s.brt with queues := s.brt.queues.set u (queueOf s u ++ [.traffic i payload]) } })) ∧
  (∀ (u : Sub) (i : Nat) (payload : Octets) (s : State), s.alc.up = true →
      i < 32 →
      (bearerAt s i).damaged = false →
      (bearerAt s i).check = .good →
      (bearerAt s i).val.state ≠ .idle →
      (bearerAt s i).val.owner = u →
      (bearerAt s i).val.cls ≠ .voice →
      16 ≤ (queueOf s u).length →
      exec (.uplinkTraffic (some u) i payload) s = .next (pump
        { s with brt := { s.brt with cnt := { s.brt.cnt with queueFull := s.brt.cnt.queueFull.set u (satInc (s.brt.cnt.queueFull.get u)) } } }))
        ∧
  (∀ (u : Sub) (i : Nat) (payload : Octets) (s : State), s.alc.up = true →
      i < 32 →
      (bearerAt s i).damaged = false →
      (bearerAt s i).check = .good →
      ((bearerAt s i).val.state = .idle ∨ (bearerAt s i).val.owner ≠ u ∨ (bearerAt s i).val.cls = .voice) →
      exec (.uplinkTraffic (some u) i payload) s = .next (pump
        { s with brt := { s.brt with cnt := { s.brt.cnt with upDiscards := satInc s.brt.cnt.upDiscards } } })) ∧
  (∀ (u : Sub) (i : Nat) (payload : Octets) (s : State), s.alc.up = true →
      i < 32 →
      (bearerAt s i).damaged = true →
      (s.sub u).state ∈ [.connecting, .connected, .handover] →
      (queueOf s u).length < 16 →
      ∃ t, exec (.uplinkTraffic (some u) i payload) s = .next t ∧ t.brt =
        { s.brt with queues := s.brt.queues.set u (queueOf s u ++ [.traffic i payload]), cnt := { s.brt.cnt with rawRouted := satInc s.brt.cnt.rawRouted } }
        ∧
        onlyChanges [.brt, .alc] s t) ∧
  (∀ (u : Sub) (i : Nat) (payload : Octets) (s : State), s.alc.up = true →
      i < 32 →
      (bearerAt s i).damaged = true →
      (s.sub u).state ∈ [.detached, .search, .camped] →
      exec (.uplinkTraffic (some u) i payload) s = .next (pump
        { s with brt := { s.brt with cnt := { s.brt.cnt with upDiscards := satInc s.brt.cnt.upDiscards } } })) ∧
  (∀ (u : Option Sub) (i : Nat) (payload : Octets) (s : State), s.alc.up = true →
      (u = none ∨ 31 < i) →
      exec (.uplinkTraffic u i payload) s = .next (pump
        { s with brt := { s.brt with cnt := { s.brt.cnt with upDiscards := satInc s.brt.cnt.upDiscards } } })) ∧
  (∀ (u : Sub) (code : Nat) (body : Octets) (s : State), s.alc.up = true →
      (s.sub u).state ∈ [.connecting, .connected, .handover] →
      (queueOf s u).length < 16 →
      exec (.uplinkControlOther (some u) code body) s = .next (pump
        { s with brt := { s.brt with queues := s.brt.queues.set u (queueOf s u ++ [.control code body]) } })) ∧
  (∀ (u : Sub) (code : Nat) (body : Octets) (s : State), s.alc.up = true →
      (s.sub u).state ∈ [.connecting, .connected, .handover] →
      16 ≤ (queueOf s u).length →
      exec (.uplinkControlOther (some u) code body) s = .next (pump
        { s with brt := { s.brt with cnt := { s.brt.cnt with queueFull := s.brt.cnt.queueFull.set u (satInc (s.brt.cnt.queueFull.get u)) } } }))
        ∧
  (∀ (u : Sub) (code : Nat) (body : Octets) (s : State), s.alc.up = true →
      (s.sub u).state ∈ [.detached, .search, .camped] →
      exec (.uplinkControlOther (some u) code body) s = .next (pump
        { s with brt := { s.brt with cnt := { s.brt.cnt with upDiscards := satInc s.brt.cnt.upDiscards } } })) ∧
  (∀ (code : Nat) (body : Octets) (s : State), s.alc.up = true →
      exec (.uplinkControlOther none code body) s = .next (pump
        { s with brt := { s.brt with cnt := { s.brt.cnt with upDiscards := satInc s.brt.cnt.upDiscards } } })) ∧
  (∀ (l : Octets) (s : State), s.alc.up = true →
      checkHolds l = false →
      exec (.alFrameRejected l) s = .next (pump
        { s with alc := { s.alc with cnt := { s.alc.cnt with checkErrors := satInc s.alc.cnt.checkErrors } } })) ∧
  (∀ (l : Octets) (s : State), s.alc.up = true →
      checkHolds l = true →
      (2 < (l.getD 0 255).toNat ∨ l.length < 8 + nat2 (l.getD 2 0) (l.getD 3 0)) →
      exec (.alFrameRejected l) s = .next (pump
        { s with alc := { s.alc with cnt := { s.alc.cnt with malformedFrames := satInc s.alc.cnt.malformedFrames } } }))

/-- With the link UP: a LINK_REQUEST for a CAMPED subscription while the other holds no link joins its queue and makes
it CONNECTING with the guard at the connect guard of PARAM and its CONNECTED claim set, its page watch removed; with a
full queue it is counted and the state stays. While the other holds a link it is not forwarded and BUSY_OTHER is
posted. For a subscription that holds a link it joins the queue. For SEARCH with no other link, for DETACHED, and
naming neither, it is an uplink discard. -/
def Obligations.LinkRequestHandled : Prop :=
  (∀ (u : Sub) (body : Octets) (s : State), s.alc.up = true →
      (s.sub u).state = .camped →
      holdsLink s u.other = false →
      (queueOf s u).length < 16 →
      (s.tab.param.get u).sound = true →
      ∃ t, exec (.linkRequest (some u) body) s = .next t ∧ (t.sub u).state = .connecting ∧
        (t.sub u).guard = some (effParam s u).connectGuard ∧
        t.rta.connected.get u = true ∧
        (∀ c ∈ t.rta.claims, ¬(c.kind = .pageWatch ∧ c.owner = .sub u)) ∧
        (t.sub u).reselecting = false ∧
        (queueOf s u ++ [.control 0 body]) <+: queueOf t u ∧
        onlyChanges [.ftb, .rta, .subA, .subB, .global, .param, .eventClass, .ctb, .pgm, .hxu, .brt, .vpb, .alc, .tmc,
          .fl] s t) ∧
  (∀ (u : Sub) (body : Octets) (s : State), s.alc.up = true →
      (s.sub u).state = .camped →
      holdsLink s u.other = false →
      16 ≤ (queueOf s u).length →
      exec (.linkRequest (some u) body) s = .next (pump
        { s with brt := { s.brt with cnt := { s.brt.cnt with queueFull := s.brt.cnt.queueFull.set u (satInc (s.brt.cnt.queueFull.get u)) } } }))
        ∧
  (∀ (u : Sub) (body : Octets) (s : State), s.alc.up = true →
      (s.sub u).state ∈ [.camped, .search] →
      holdsLink s u.other = true →
      ∃ t, exec (.linkRequest (some u) body) s = .next t ∧ (postable s .busyOther → queued s t .busyOther (some u)
        u.other.code 0) ∧
        onlyChanges [.alc, .eventClass, .tmc] s t) ∧
  (∀ (u : Sub) (body : Octets) (s : State), s.alc.up = true →
      (s.sub u).state ∈ [.connecting, .connected, .handover] →
      (queueOf s u).length < 16 →
      exec (.linkRequest (some u) body) s = .next (pump
        { s with brt := { s.brt with queues := s.brt.queues.set u (queueOf s u ++ [.control 0 body]) } })) ∧
  (∀ (u : Sub) (body : Octets) (s : State), s.alc.up = true →
      (s.sub u).state ∈ [.connecting, .connected, .handover] →
      16 ≤ (queueOf s u).length →
      exec (.linkRequest (some u) body) s = .next (pump
        { s with brt := { s.brt with cnt := { s.brt.cnt with queueFull := s.brt.cnt.queueFull.set u (satInc (s.brt.cnt.queueFull.get u)) } } }))
        ∧
  (∀ (u : Sub) (body : Octets) (s : State), s.alc.up = true →
      ((s.sub u).state = .detached ∨ (s.sub u).state = .search ∧ holdsLink s u.other = false) →
      exec (.linkRequest (some u) body) s = .next (pump
        { s with brt := { s.brt with cnt := { s.brt.cnt with upDiscards := satInc s.brt.cnt.upDiscards } } })) ∧
  (∀ (body : Octets) (s : State), s.alc.up = true →
      exec (.linkRequest none body) s = .next (pump
        { s with brt := { s.brt with cnt := { s.brt.cnt with upDiscards := satInc s.brt.cnt.upDiscards } } }))

/-- With the link UP, a TABLE_WRITE of PARAM or of GLOBAL within the table stores each entry with every field clamped
into its range, a fresh check code and the damaged mark cleared, and answers DONE, or DONE_CLAMPED if a field was
changed; a GLOBAL entry of no mode is answered OUT_OF_RANGE. A field in range is stored as written, one outside as the
nearest bound, a preferred cycle or a depth as the largest value of its set not above it (the least where all are
above), and the flags as written; so a stored PARAM entry lies in the ranges of R4 and a stored GLOBAL entry in those
of R21 and R161. With no entry holding a wrong position, a write of a subscription's PARAM puts its trigger counts at
0, in every entry and in the trigger list of its handover, recomputes its effective cycle, brings its missed-occasion
count down to the new limit, and moves the pending watch of a CAMPED one to the next occasion of a changed cycle; its
weak flag, connect guard and the other fields stay, and so does the record of a subscription not written. -/
def Obligations.ParamAndGlobalWrites : Prop :=
  (∀ (tag first : Nat) (l : List ParamWrite) (s : State), s.alc.up = true →
      l ≠ [] →
      first + l.length ≤ 2 →
      ∃ t, exec (.tableWriteParam tag first l) s = .next t ∧ (Clean s → ∀ u : Sub, first ≤ u.code → u.code < first +
        l.length → paramTaken u s t) ∧
        (Settled s → s.rta.claims.length < 16 → ∀ u : Sub, first ≤ u.code → u.code < first + l.length → (s.sub u).state
          = .camped → (∃ c ∈ s.rta.claims, c.kind = .pageWatch ∧ c.owner = .sub u) → (t.sub u).serving ≠ (s.sub
          u).serving → watchPlaced u t t) ∧
        (Clean s → ∀ u : Sub, (u.code < first ∨ first + l.length ≤ u.code) → t.sub u = s.sub u) ∧
        (∀ k < l.length, ∀ w ∈ (l[k]?).toList, t.tab.param.get (if first + k = 0 then .A else .B) = .fresh (clampParam
          w)) ∧
        responded
          { tag := tag, code := 1, status := (if l.all (fun w => decide (paramAsWrite (clampParam w) = w)) = true then .done else .doneClamped), payload := .none }
          s t ∧
        onlyChanges [.ftb, .rta, .subA, .subB, .global, .param, .eventClass, .ctb, .pgm, .hxu, .vpb, .alc, .tmc, .fl] s
          t) ∧
  (∀ (tag first : Nat) (l : List GlobalWrite) (w : GlobalWrite) (m : OccMode) (s : State), s.alc.up = true →
      l = [w] →
      first = 0 →
      w.mode = some m →
      ∃ t, exec (.tableWriteGlobal tag first l) s = .next t ∧ t.tab.global = .fresh
        { lead := (clamp 33 655 w.lead).toNat, drift := clamp (-64) 63 w.drift, depth := (if w.depth < 4 then 2 else if w.depth < 8 then 4 else 8), mode := m }
        ∧
        answered { tag := tag, code := 1, status := (if 33 ≤ w.lead ∧ w.lead ≤ 655 ∧ -64 ≤ w.drift ∧ w.drift ≤ 63 ∧ w.depth ∈ [2, 4, 8] then .done else .doneClamped), payload := .none }
          s.alc.cnt s t ∧
        onlyChanges [.global, .ftb, .fl, .vpb, .alc] s t) ∧
  (∀ (tag first : Nat) (l : List GlobalWrite) (w : GlobalWrite) (s : State), s.alc.up = true →
      l = [w] →
      first = 0 →
      w.mode = none →
      ∃ t, exec (.tableWriteGlobal tag first l) s = .next t ∧ answered
        { tag := tag, code := 1, status := .outOfRange, payload := .none } s.alc.cnt s t ∧
        onlyChanges [.alc] s t) ∧
  (∀ w : ParamWrite, paramStored w (clampParam w)) ∧ (∀ w : ParamWrite, paramInRange (clampParam w)) ∧
    (∀ p : Param, paramInRange p → clampParam (paramAsWrite p) = p) ∧
    (∀ (w : GlobalWrite) (m : OccMode), globalInRange (clampGlobal w m) ∧ nearest 33 655 w.lead (clampGlobal w m).lead ∧
      nearest (-64) 63 w.drift (clampGlobal w m).drift ∧ largestNotAbove [2, 4, 8] w.depth (clampGlobal w m).depth ∧
      (clampGlobal w m).mode = m)

/-- With the link UP, a TABLE_WRITE of IDENTITY, SCREEN or EVENT_CLASS within the table, of well-formed entries,
stores each with a fresh check code and the damaged mark cleared, leaves the other entries as they were (another
IDENTITY entry that the derivation finds uncorrectable is marked damaged), and answers DONE; after a write of IDENTITY
the paging key of each subscription written is that of its first valid undamaged PERMANENT entry, (K * 10 + d) mod
1024 over its digits, or 0. An IDENTITY entry of no kind, with 0 or more than 15 digits or a digit above 9, and an
EVENT_CLASS entry of no class, refuse the request with OUT_OF_RANGE and change no table. -/
def Obligations.IdentityScreenAndClassWrites : Prop :=
  (∀ (tag first : Nat) (l : List IdentityWrite) (s : State), s.alc.up = true →
      l ≠ [] →
      first + l.length ≤ 8 →
      s.tab.identity.length = 8 →
      (∀ w ∈ l, w.kind = some .temporary ∨ (w.kind = some .permanent ∧ 1 ≤ w.digits.length ∧ w.digits.length ≤ 15 ∧ ∀ d
        ∈ w.digits, d ≤ 9)) →
      ∃ t, exec (.tableWriteIdentity tag first l) s = .next t ∧ (∀ k < l.length, ∀ w ∈ (l[k]?).toList, identityAt t
        (first + k) = .fresh (if w.kind = some .permanent then
        { kind := .permanent, digits := w.digits, number := 0, valid := w.valid } else
        { kind := .temporary, digits := [], number := w.number, valid := w.valid })) ∧
        (∀ i < 8, (i < first ∨ first + l.length ≤ i) → (identityAt t i).val = (identityAt s i).val ∧ ((identityAt s
          i).damaged = true → (identityAt t i).damaged = true) ∧ ((identityAt s i).check ≠ .two → (identityAt t
          i).damaged = (identityAt s i).damaged)) ∧
        (Clean s → ∀ i < 8, (i < first ∨ first + l.length ≤ i) → identityAt t i = identityAt s i) ∧
        responded { tag := tag, code := 1, status := .done, payload := .none } s t ∧
        (∀ u : Sub, (∃ k < l.length, (first + k) / 4 = u.code) → (t.sub u).pagingKey = deriveKey t u) ∧
        onlyChanges [.identity, .ftb, .rta, .subA, .subB, .global, .param, .eventClass, .ctb, .pgm, .hxu, .vpb, .alc,
          .tmc, .fl] s t) ∧
  (∀ (tag first : Nat) (l : List IdentityWrite) (s : State), s.alc.up = true →
      l ≠ [] →
      first + l.length ≤ 8 →
      ¬(∀ w ∈ l, w.kind = some .temporary ∨ (w.kind = some .permanent ∧ 1 ≤ w.digits.length ∧ w.digits.length ≤ 15 ∧ ∀ d
        ∈ w.digits, d ≤ 9)) →
      ∃ t, exec (.tableWriteIdentity tag first l) s = .next t ∧ answered
        { tag := tag, code := 1, status := .outOfRange, payload := .none } s.alc.cnt s t ∧
        onlyChanges [.alc] s t) ∧
  (∀ (tag first : Nat) (l : List (BitVec 16)) (s : State), s.alc.up = true →
      l ≠ [] →
      first + l.length ≤ 32 →
      s.tab.screen.length = 32 →
      ∃ t, exec (.tableWriteScreen tag first l) s = .next t ∧ (∀ k < l.length, ∀ w ∈ (l[k]?).toList, screenAt t (first +
        k) = .fresh w) ∧
        (∀ i < 32, (i < first ∨ first + l.length ≤ i) → screenAt t i = screenAt s i) ∧
        answered { tag := tag, code := 1, status := .done, payload := .none } s.alc.cnt s t ∧
        onlyChanges [.screen, .alc] s t) ∧
  (∀ (tag first : Nat) (l : List (Option EventClass)) (s : State), s.alc.up = true →
      l ≠ [] →
      first + l.length ≤ 22 →
      s.tab.eventClass.length = 32 →
      (∀ c ∈ l, c ≠ none) →
      ∃ t, exec (.tableWriteEventClass tag first l) s = .next t ∧ (∀ k < l.length, ∀ c ∈ (l[k]?.getD none).toList,
        classEntry t (first + k) = .fresh c) ∧
        (∀ i < 32, (i < first ∨ first + l.length ≤ i) → classEntry t i = classEntry s i) ∧
        answered { tag := tag, code := 1, status := .done, payload := .none } s.alc.cnt s t ∧
        onlyChanges [.eventClass, .alc] s t) ∧
  (∀ (tag first : Nat) (l : List (Option EventClass)) (s : State), s.alc.up = true →
      l ≠ [] →
      first + l.length ≤ 22 →
      (∃ c ∈ l, c = none) →
      ∃ t, exec (.tableWriteEventClass tag first l) s = .next t ∧ answered
        { tag := tag, code := 1, status := .outOfRange, payload := .none } s.alc.cnt s t ∧
        onlyChanges [.alc] s t) ∧
  (∀ (s : State) (u : Sub), deriveKey s u =
      (((identitiesOf u).filterMap (fun i => if (identityAt s i).damaged = false ∧ (identityAt s i).val.valid = true ∧
        (identityAt s i).val.kind = .permanent then some (identityAt s i).val.digits else none)).headD []).foldl
        (fun k d => (k * 10 + d) % 1024) 0)

/-- With the link UP, a TABLE_WRITE of BEARER within the table: an undefined owner, class or state, or an entry
written HELD, is answered OUT_OF_RANGE; an addressed entry that is HELD and not damaged, an entry written ACTIVE whose
owner is neither CONNECTING nor CONNECTED, or more than one live VOICE entry after the write (no entry holding a wrong
position), WRONG_STATE; the table is then unchanged. Otherwise it stores each entry fresh and undamaged, leaves the
others, answers DONE, and the playout stands on the live VOICE bearer if there is one and is INACTIVE if there is
none; that it moves with a VOICE bearer that the write moves is the model's choice (log entry 27). Every addressed
entry is read and checked before the tests (log entry 10): one found uncorrectable, whatever state it holds, is
counted, recorded and announced, and a write over it passes (stated of one entry written IDLE, with GLOBAL, which an
activated playout reads, clean or marked damaged). -/
def Obligations.BearerWrites : Prop :=
  (∀ (tag first : Nat) (l : List BearerWrite) (s : State), s.alc.up = true →
      l ≠ [] →
      first + l.length ≤ 32 →
      (¬(∀ w ∈ l, (bearerOfWrite w).isSome = true) ∨ ¬(∀ w ∈ l, w.state ≠ some .held)) →
      ∃ t, exec (.tableWriteBearer tag first l) s = .next t ∧ answered
        { tag := tag, code := 1, status := .outOfRange, payload := .none } s.alc.cnt s t ∧
        onlyChanges [.alc] s t) ∧
  (∀ (tag first : Nat) (l : List BearerWrite) (s : State), s.alc.up = true →
      l ≠ [] →
      first + l.length ≤ 32 →
      (∀ w ∈ l, (bearerOfWrite w).isSome = true) →
      (∀ w ∈ l, w.state ≠ some .held) →
      (∀ k < l.length, (bearerAt s (first + k)).sound = true) →
      ((∃ k < l.length, (bearerAt s (first + k)).damaged = false ∧ (bearerAt s (first + k)).val.state = .held) ∨ (∃ w ∈
        l, w.state = some .active ∧ ∃ o ∈ w.owner.toList, (s.sub o).state ∉ [.connecting, .connected])) →
      ∃ t, exec (.tableWriteBearer tag first l) s = .next t ∧ answered
        { tag := tag, code := 1, status := .wrongState, payload := .none } s.alc.cnt s t ∧
        onlyChanges [.alc] s t) ∧
  (∀ (tag first : Nat) (l : List BearerWrite) (s : State), s.alc.up = true →
      l ≠ [] →
      first + l.length ≤ 32 →
      s.tab.bearer.length = 32 →
      Clean s →
      (∀ w ∈ l, (bearerOfWrite w).isSome = true) →
      (∀ w ∈ l, w.state ≠ some .held) →
      ¬(∃ k < l.length, (bearerAt s (first + k)).damaged = false ∧ (bearerAt s (first + k)).val.state = .held) →
      ¬(∃ w ∈ l, w.state = some .active ∧ ∃ o ∈ w.owner.toList, (s.sub o).state ∉ [.connecting, .connected]) →
      ¬((List.range 32).countP (fun i => if first ≤ i ∧ i < first + l.length then decide (((l[i - first]?).bind
        bearerOfWrite).map (fun b => (b.cls, b.state == .idle)) = some (.voice, false)) else (bearerAt s i).damaged ==
        false && (bearerAt s i).val.cls == .voice && (bearerAt s i).val.state != .idle) ≤ 1) →
      ∃ t, exec (.tableWriteBearer tag first l) s = .next t ∧ answered
        { tag := tag, code := 1, status := .wrongState, payload := .none } s.alc.cnt s t ∧
        onlyChanges [.alc] s t) ∧
  (∀ (tag first : Nat) (l : List BearerWrite) (s : State), s.alc.up = true →
      l ≠ [] →
      first + l.length ≤ 32 →
      s.tab.bearer.length = 32 →
      Clean s →
      (∀ w ∈ l, (bearerOfWrite w).isSome = true) →
      (∀ w ∈ l, w.state ≠ some .held) →
      ¬(∃ k < l.length, (bearerAt s (first + k)).damaged = false ∧ (bearerAt s (first + k)).val.state = .held) →
      ¬(∃ w ∈ l, w.state = some .active ∧ ∃ o ∈ w.owner.toList, (s.sub o).state ∉ [.connecting, .connected]) →
      ((List.range 32).countP (fun i => if first ≤ i ∧ i < first + l.length then decide (((l[i - first]?).bind
        bearerOfWrite).map (fun b => (b.cls, b.state == .idle)) = some (.voice, false)) else (bearerAt s i).damaged ==
        false && (bearerAt s i).val.cls == .voice && (bearerAt s i).val.state != .idle) ≤ 1) →
      ∃ t, exec (.tableWriteBearer tag first l) s = .next t ∧ (∀ k < l.length, ∀ b ∈ ((l[k]?).bind
        bearerOfWrite).toList, bearerAt t (first + k) = .fresh b) ∧
        (∀ i < 32, (i < first ∨ first + l.length ≤ i) → bearerAt t i = bearerAt s i) ∧
        answered { tag := tag, code := 1, status := .done, payload := .none } s.alc.cnt s t ∧
        t.vpb.play.map (fun p => p.bearer) = (List.range 32).find? (fun i => (bearerAt t i).damaged == false &&
          (bearerAt t i).val.cls == .voice && (bearerAt t i).val.state != .idle) ∧
        onlyChanges [.bearer, .vpb, .alc] s t) ∧
  (∀ (tag first : Nat) (w : BearerWrite) (b : Bearer) (s : State), s.alc.up = true →
      first < 32 →
      s.tab.bearer.length = 32 →
      bearerOfWrite w = some b →
      b.state = .idle →
      (bearerAt s first).check = .two →
      (bearerAt s first).damaged = false →
      (∀ i < 32, i ≠ first → (bearerAt s i).sound = true) →
      (classEntry s 8).sound = true →
      s.tab.global.sound = true →
      ((List.range 32).countP (fun i => i != first && (bearerAt s i).damaged == false && (bearerAt s i).val.cls ==
        .voice && (bearerAt s i).val.state != .idle) ≤ 1) →
      ∃ t, exec (.tableWriteBearer tag first [w]) s = .next t ∧ bearerAt t first = .fresh b ∧
        (∀ i < 32, i ≠ first → bearerAt t i = bearerAt s i) ∧
        responded { tag := tag, code := 1, status := .done, payload := .none } s t ∧
        t.tmc = { s.tmc with uncorrectable := s.tmc.uncorrectable.modify 4 (fun n => min (n + 1) 15), lastFail := some (4, first, s.ftb.fn) }
          ∧
        (postable s .tableDamaged → queued s t .tableDamaged none 4 first) ∧
        onlyChanges [.bearer, .vpb, .alc, .tmc] s t)

/-- With the link UP: a TABLE_WRITE of entries beyond the last of GLOBAL, PARAM, IDENTITY, SCREEN or BEARER, or above
21 of EVENT_CLASS, is answered OUT_OF_RANGE; one of a table that may not be written NO_SUCH_TABLE; a malformed request
MALFORMED with its tag and code, counted. A TABLE_WRITE of any of the six that carries no entry is answered MALFORMED
(log entry 20). Nothing else changes. -/
def Obligations.RequestsRefusedForTheirForm : Prop :=
  (∀ (tag first : Nat) (l : List GlobalWrite) (s : State), s.alc.up = true →
      l ≠ [] →
      1 < first + l.length →
      ∃ t, exec (.tableWriteGlobal tag first l) s = .next t ∧ answered
        { tag := tag, code := 1, status := .outOfRange, payload := .none } s.alc.cnt s t ∧
        onlyChanges [.alc] s t) ∧
  (∀ (tag first : Nat) (l : List ParamWrite) (s : State), s.alc.up = true →
      l ≠ [] →
      2 < first + l.length →
      ∃ t, exec (.tableWriteParam tag first l) s = .next t ∧ answered
        { tag := tag, code := 1, status := .outOfRange, payload := .none } s.alc.cnt s t ∧
        onlyChanges [.alc] s t) ∧
  (∀ (tag first : Nat) (l : List IdentityWrite) (s : State), s.alc.up = true →
      l ≠ [] →
      8 < first + l.length →
      ∃ t, exec (.tableWriteIdentity tag first l) s = .next t ∧ answered
        { tag := tag, code := 1, status := .outOfRange, payload := .none } s.alc.cnt s t ∧
        onlyChanges [.alc] s t) ∧
  (∀ (tag first : Nat) (l : List (BitVec 16)) (s : State), s.alc.up = true →
      l ≠ [] →
      32 < first + l.length →
      ∃ t, exec (.tableWriteScreen tag first l) s = .next t ∧ answered
        { tag := tag, code := 1, status := .outOfRange, payload := .none } s.alc.cnt s t ∧
        onlyChanges [.alc] s t) ∧
  (∀ (tag first : Nat) (l : List BearerWrite) (s : State), s.alc.up = true →
      l ≠ [] →
      32 < first + l.length →
      ∃ t, exec (.tableWriteBearer tag first l) s = .next t ∧ answered
        { tag := tag, code := 1, status := .outOfRange, payload := .none } s.alc.cnt s t ∧
        onlyChanges [.alc] s t) ∧
  (∀ (tag first : Nat) (l : List (Option EventClass)) (s : State), s.alc.up = true →
      l ≠ [] →
      22 < first + l.length →
      ∃ t, exec (.tableWriteEventClass tag first l) s = .next t ∧ answered
        { tag := tag, code := 1, status := .outOfRange, payload := .none } s.alc.cnt s t ∧
        onlyChanges [.alc] s t) ∧
  (∀ (tag table : Nat) (s : State), s.alc.up = true →
      ∃ t, exec (.tableWriteNoSuchTable tag table) s = .next t ∧ answered
        { tag := tag, code := 1, status := .noSuchTable, payload := .none } s.alc.cnt s t ∧
        onlyChanges [.alc] s t) ∧
  (∀ (tag code : Nat) (s : State), s.alc.up = true →
      ∃ t, exec (.malformedRequest tag code) s = .next t ∧ answered
        { tag := tag, code := code, status := .malformed, payload := .none }
        { s.alc.cnt with malformedRequests := satInc s.alc.cnt.malformedRequests } s t ∧
        onlyChanges [.alc] s t) ∧
  (∀ (tag first : Nat) (s : State), s.alc.up = true →
      ∃ t, exec (.tableWriteGlobal tag first []) s = .next t ∧ answered
        { tag := tag, code := 1, status := .malformed, payload := .none }
        { s.alc.cnt with malformedRequests := satInc s.alc.cnt.malformedRequests } s t ∧
        onlyChanges [.alc] s t) ∧
  (∀ (tag first : Nat) (s : State), s.alc.up = true →
      ∃ t, exec (.tableWriteParam tag first []) s = .next t ∧ answered
        { tag := tag, code := 1, status := .malformed, payload := .none }
        { s.alc.cnt with malformedRequests := satInc s.alc.cnt.malformedRequests } s t ∧
        onlyChanges [.alc] s t) ∧
  (∀ (tag first : Nat) (s : State), s.alc.up = true →
      ∃ t, exec (.tableWriteIdentity tag first []) s = .next t ∧ answered
        { tag := tag, code := 1, status := .malformed, payload := .none }
        { s.alc.cnt with malformedRequests := satInc s.alc.cnt.malformedRequests } s t ∧
        onlyChanges [.alc] s t) ∧
  (∀ (tag first : Nat) (s : State), s.alc.up = true →
      ∃ t, exec (.tableWriteScreen tag first []) s = .next t ∧ answered
        { tag := tag, code := 1, status := .malformed, payload := .none }
        { s.alc.cnt with malformedRequests := satInc s.alc.cnt.malformedRequests } s t ∧
        onlyChanges [.alc] s t) ∧
  (∀ (tag first : Nat) (s : State), s.alc.up = true →
      ∃ t, exec (.tableWriteBearer tag first []) s = .next t ∧ answered
        { tag := tag, code := 1, status := .malformed, payload := .none }
        { s.alc.cnt with malformedRequests := satInc s.alc.cnt.malformedRequests } s t ∧
        onlyChanges [.alc] s t) ∧
  (∀ (tag first : Nat) (s : State), s.alc.up = true →
      ∃ t, exec (.tableWriteEventClass tag first []) s = .next t ∧ answered
        { tag := tag, code := 1, status := .malformed, payload := .none }
        { s.alc.cnt with malformedRequests := satInc s.alc.cnt.malformedRequests } s t ∧
        onlyChanges [.alc] s t)

/-- With the link UP: a table code of no table is answered NO_SUCH_TABLE, and a count of 0 or above 16 or a first
index beyond the table OUT_OF_RANGE, with nothing else changed. A read of SCREEN with no entry holding a wrong
position returns the words in index order, wrapping, damaged ones as damaged, and leaves the cursor after the last. A
read of one SCREEN word with one wrong position returns it, corrects it and counts it; with two it marks it damaged,
counts and records it, and returns it as damaged; a damaged one is not checked. A read of GLOBAL, PARAM, IDENTITY,
BEARER, EVENT_CLASS or CELL, no entry holding a wrong position, returns the entries in index order, wrapping, damaged
ones as damaged and an invalid CELL entry as empty. NEXT reads at the cursor, whatever table is named. A read of
CLAIMS returns the timed claims in list order, empty beyond the last, and the arbiter record as entry 16; one of
SUBSTATE the record of A and of B without its identities and PARAM; one of FALLBACK the freeze and the running
handover with the serving timing values as entry 0, the records of the trigger list as entries 1 to 64 and empty
beyond the last; each wraps and changes nothing but the cursor. -/
def Obligations.TableReadReturns : Prop :=
  (∀ (tag table : Nat) (first : Option Nat) (count : Nat) (s : State), s.alc.up = true →
      9 < table →
      ∃ t, exec (.tableRead tag table first count) s = .next t ∧ answered
        { tag := tag, code := 2, status := .noSuchTable, payload := .none } s.alc.cnt s t ∧
        onlyChanges [.alc] s t) ∧
  (∀ (tag table : Nat) (first : Option Nat) (count : Nat) (x : TableId) (s : State), s.alc.up = true →
      TableId.ofCode table = some x →
      (count = 0 ∨ 16 < count ∨ first.any (fun i => decide (x.size ≤ i)) = true) →
      ∃ t, exec (.tableRead tag table first count) s = .next t ∧ answered
        { tag := tag, code := 2, status := .outOfRange, payload := .none } s.alc.cnt s t ∧
        onlyChanges [.alc] s t) ∧
  (∀ (tag i count : Nat) (s : State), s.alc.up = true →
      1 ≤ count →
      count ≤ 16 →
      i < 32 →
      Clean s →
      ∃ t, exec (.tableRead tag 3 (some i) count) s = .next t ∧ responded
        { tag := tag, code := 2, status := .done, payload := (.entries .screen ((List.range count).map (fun k => if (screenAt s ((i + k) % 32)).damaged = true then .damaged else .screen (screenAt s ((i + k) % 32)).val))) }
        s t ∧
        t.alc.cursor = (.screen, (i + count) % 32) ∧
        t.alc.events = s.alc.events ∧
        onlyChanges [.alc] s t) ∧
  (∀ (tag i : Nat) (s : State), s.alc.up = true →
      i < 32 →
      s.tab.screen.length = 32 →
      (screenAt s i).damaged = false →
      (screenAt s i).check = .one →
      ∃ t, exec (.tableRead tag 3 (some i) 1) s = .next t ∧ responded
        { tag := tag, code := 2, status := .done, payload := (.entries .screen [.screen (screenAt s i).val]) } s t ∧
        screenAt t i = { screenAt s i with check := .good } ∧
        t.tmc = { s.tmc with correctable := s.tmc.correctable.modify 3 (fun n => min (n + 1) 15) } ∧
        t.alc.events = s.alc.events ∧
        onlyChanges [.screen, .tmc, .alc] s t) ∧
  (∀ (tag i : Nat) (s : State), s.alc.up = true →
      i < 32 →
      s.tab.screen.length = 32 →
      (screenAt s i).damaged = false →
      (screenAt s i).check = .two →
      ∃ t, exec (.tableRead tag 3 (some i) 1) s = .next t ∧ responded
        { tag := tag, code := 2, status := .done, payload := (.entries .screen [.damaged]) } s t ∧
        screenAt t i = { screenAt s i with damaged := true } ∧
        ((classEntry s 8).sound = true → t.tmc =
          { s.tmc with uncorrectable := s.tmc.uncorrectable.modify 3 (fun n => min (n + 1) 15), lastFail := some (3, i, s.ftb.fn) })
          ∧
        (postable s .tableDamaged → queued s t .tableDamaged none 3 i) ∧
        onlyChanges [.screen, .eventClass, .tmc, .alc] s t) ∧
  (∀ (tag i : Nat) (s : State), s.alc.up = true →
      i < 32 →
      (screenAt s i).damaged = true →
      ∃ t, exec (.tableRead tag 3 (some i) 1) s = .next t ∧ responded
        { tag := tag, code := 2, status := .done, payload := (.entries .screen [.damaged]) } s t ∧
        onlyChanges [.alc] s t) ∧
  (∀ (tag count : Nat) (s : State), s.alc.up = true →
      1 ≤ count →
      count ≤ 16 →
      Clean s →
      ∃ t, exec (.tableRead tag 0 (some 0) count) s = .next t ∧ responded
        { tag := tag, code := 2, status := .done, payload := (.entries .global [if s.tab.global.damaged = true then .damaged else .global s.tab.global.val]) }
        s t ∧
        t.alc.cursor = (.global, 0) ∧
        onlyChanges [.alc] s t) ∧
  (∀ (tag i count : Nat) (s : State), s.alc.up = true →
      1 ≤ count →
      count ≤ 16 →
      i < 2 →
      Clean s →
      ∃ t, exec (.tableRead tag 1 (some i) count) s = .next t ∧ responded
        { tag := tag, code := 2, status := .done, payload := (.entries .param ((List.range (min count 2)).map (fun k => if (s.tab.param.get (if ((i + k) % 2) = 0 then .A else .B)).damaged = true then .damaged else .param (s.tab.param.get (if ((i + k) % 2) = 0 then .A else .B)).val))) }
        s t ∧
        t.alc.cursor = (.param, (i + min count 2) % 2) ∧
        t.alc.events = s.alc.events ∧
        onlyChanges [.alc] s t) ∧
  (∀ (tag i count : Nat) (s : State), s.alc.up = true →
      1 ≤ count →
      count ≤ 16 →
      i < 8 →
      Clean s →
      ∃ t, exec (.tableRead tag 2 (some i) count) s = .next t ∧ responded
        { tag := tag, code := 2, status := .done, payload := (.entries .identity ((List.range (min count 8)).map (fun k => if (identityAt s ((i + k) % 8)).damaged = true then .damaged else .identity (identityAt s ((i + k) % 8)).val))) }
        s t ∧
        t.alc.cursor = (.identity, (i + min count 8) % 8) ∧
        t.alc.events = s.alc.events ∧
        onlyChanges [.alc] s t) ∧
  (∀ (tag i count : Nat) (s : State), s.alc.up = true →
      1 ≤ count →
      count ≤ 16 →
      i < 32 →
      Clean s →
      ∃ t, exec (.tableRead tag 4 (some i) count) s = .next t ∧ responded
        { tag := tag, code := 2, status := .done, payload := (.entries .bearer ((List.range (min count 32)).map (fun k => if (bearerAt s ((i + k) % 32)).damaged = true then .damaged else .bearer (bearerAt s ((i + k) % 32)).val))) }
        s t ∧
        t.alc.cursor = (.bearer, (i + min count 32) % 32) ∧
        t.alc.events = s.alc.events ∧
        onlyChanges [.alc] s t) ∧
  (∀ (tag i count : Nat) (s : State), s.alc.up = true →
      1 ≤ count →
      count ≤ 16 →
      i < 32 →
      Clean s →
      ∃ t, exec (.tableRead tag 5 (some i) count) s = .next t ∧ responded
        { tag := tag, code := 2, status := .done, payload := (.entries .eventClass ((List.range (min count 32)).map (fun k => if 21 < ((i + k) % 32) then .eventClass .suppressed else if (classEntry s ((i + k) % 32)).damaged = true then .damaged else .eventClass (classEntry s ((i + k) % 32)).val))) }
        s t ∧
        t.alc.cursor = (.eventClass, (i + min count 32) % 32) ∧
        t.alc.events = s.alc.events ∧
        onlyChanges [.alc] s t) ∧
  (∀ (tag i count : Nat) (s : State), s.alc.up = true →
      1 ≤ count →
      count ≤ 16 →
      i < 64 →
      Clean s →
      ∃ t, exec (.tableRead tag 6 (some i) count) s = .next t ∧ responded
        { tag := tag, code := 2, status := .done, payload := (.entries .cell ((List.range (min count 64)).map (fun k => if (cellAt s ((i + k) % 64)).valid = true then .cell (cellAt s ((i + k) % 64)) else .empty))) }
        s t ∧
        t.alc.cursor = (.cell, (i + min count 64) % 64) ∧
        t.alc.events = s.alc.events ∧
        onlyChanges [.alc] s t) ∧
  (∀ (tag table count : Nat) (s : State), s.alc.up = true →
      table ≤ 9 →
      1 ≤ count →
      count ≤ 16 →
      s.alc.cursor.2 < s.alc.cursor.1.size →
      ∃ t, exec (.tableRead tag table none count) s = .next t ∧ exec (.tableRead tag table none count) s = exec
        (.tableRead tag s.alc.cursor.1.code (some s.alc.cursor.2) count) s) ∧
  (∀ (tag i count : Nat) (s : State), s.alc.up = true →
      1 ≤ count →
      count ≤ 16 →
      i < 17 →
      ∃ t, exec (.tableRead tag 7 (some i) count) s = .next t ∧ responded
        { tag := tag, code := 2, status := .done, payload := (.entries .claims ((List.range count).map (fun k => claimsEntry s ((i + k) % 17)))) }
        s t ∧
        t.alc.cursor = (.claims, (i + count) % 17) ∧
        t.alc.events = s.alc.events ∧
        onlyChanges [.alc] s t) ∧
  (∀ (tag i count : Nat) (s : State), s.alc.up = true →
      1 ≤ count →
      count ≤ 16 →
      i < 2 →
      ∃ t, exec (.tableRead tag 8 (some i) count) s = .next t ∧ responded
        { tag := tag, code := 2, status := .done, payload := (.entries .substate ((List.range (min count 2)).map (fun k => .substate (s.sub (if (i + k) % 2 = 0 then .A else .B))))) }
        s t ∧
        t.alc.cursor = (.substate, (i + min count 2) % 2) ∧
        t.alc.events = s.alc.events ∧
        onlyChanges [.alc] s t) ∧
  (∀ (tag i count : Nat) (s : State), s.alc.up = true →
      1 ≤ count →
      count ≤ 16 →
      i < 65 →
      ∃ t, exec (.tableRead tag 9 (some i) count) s = .next t ∧ responded
        { tag := tag, code := 2, status := .done, payload := (.entries .fallback ((List.range count).map (fun k => fallbackEntry s ((i + k) % 65)))) }
        s t ∧
        t.alc.cursor = (.fallback, (i + count) % 65) ∧
        t.alc.events = s.alc.events ∧
        onlyChanges [.alc] s t)

/-- With the link UP: a key out of range is answered OUT_OF_RANGE. With no entry holding a wrong position and the
table as its invariant has it, a cell that is held is listed with the barred flag and the offset clamped to -48..48,
its filter, pins and parts kept and its check code fresh, frozen or not; one that is not held is answered FROZEN while
the table is frozen, and otherwise takes an entry of its own set, listed, unmeasured, without pins or marks: the first
invalid way, or with none the first in the pseudo-LRU walk (the way that the pair bit and its pair's bit name, its
sibling, the other pair in the same way) that holds no pin; the allocation is counted, a valid cell discarded is
counted as a replacement and, listed, as a listed replacement, and the way taken is touched. The response carries the
entry number, and DONE_CLAMPED if the offset was clamped. -/
def Obligations.CellPutLists : Prop :=
  (∀ (tag : Nat) (k : Key) (barred : Bool) (offset : Int) (s : State), s.alc.up = true →
      keyInRange k = false →
      ∃ t, exec (.cellPut tag k barred offset) s = .next t ∧ answered
        { tag := tag, code := 3, status := .outOfRange, payload := .none } s.alc.cnt s t ∧
        onlyChanges [.alc] s t) ∧
  (∀ (tag : Nat) (k : Key) (barred : Bool) (offset : Int) (i : Nat) (s : State), s.alc.up = true →
      keyInRange k = true →
      Clean s →
      CoreInv s →
      i < 64 →
      (cellAt s i).valid = true →
      (cellAt s i).key = k →
      ∃ t, exec (.cellPut tag k barred offset) s = .next t ∧ t.ctb =
        { s.ctb with cells := s.ctb.cells.set i { cellAt s i with listed := true, barred := barred, offset := (if offset < -48 then -48 else if 48 < offset then 48 else offset), check := .good } }
        ∧
        answered { tag := tag, code := 3, status := (if offset < -48 ∨ 48 < offset then .doneClamped else .done), payload := (.entryNumber i) }
          s.alc.cnt s t ∧
        onlyChanges [.ctb, .alc] s t) ∧
  (∀ (tag : Nat) (k : Key) (barred : Bool) (offset : Int) (s : State), s.alc.up = true →
      keyInRange k = true →
      Clean s →
      CoreInv s →
      s.ctb.frozen = true →
      (∀ i < 64, (cellAt s i).valid = true → (cellAt s i).key ≠ k) →
      ∃ t, exec (.cellPut tag k barred offset) s = .next t ∧ answered
        { tag := tag, code := 3, status := .frozen, payload := .none } s.alc.cnt s t ∧
        t.ctb = { s.ctb with cnt := { s.ctb.cnt with refused := satInc s.ctb.cnt.refused } } ∧
        onlyChanges [.ctb, .alc] s t) ∧
  (∀ (tag : Nat) (k : Key) (barred : Bool) (offset : Int) (s : State), s.alc.up = true →
      keyInRange k = true →
      Clean s →
      CoreInv s →
      s.ctb.frozen = false →
      (∀ i < 64, (cellAt s i).valid = true → (cellAt s i).key ≠ k) →
      ∃ t, exec (.cellPut tag k barred offset) s = .next t ∧ (∃ i < 64, wayTaken s k i ∧ t.ctb.cells = s.ctb.cells.set i
        { Cell.invalid with valid := true, key := k, listed := true, barred := barred, offset := (if offset < -48 then -48 else if 48 < offset then 48 else offset) }
        ∧ t.ctb.plru = s.ctb.plru.modify (setOf k) (touched (i % 4)) ∧ t.ctb.cnt.replacements = (if (cellAt s i).valid =
        true then satInc s.ctb.cnt.replacements else s.ctb.cnt.replacements) ∧ t.ctb.cnt.listedReplacements = (if
        (cellAt s i).valid = true ∧ (cellAt s i).listed = true then satInc s.ctb.cnt.listedReplacements else
        s.ctb.cnt.listedReplacements) ∧ answered
        { tag := tag, code := 3, status := (if offset < -48 ∨ 48 < offset then .doneClamped else .done), payload := (.entryNumber i) }
        s.alc.cnt s t) ∧
        t.ctb.cnt.allocations = satInc s.ctb.cnt.allocations ∧
        t.ctb.frozen = s.ctb.frozen ∧
        onlyChanges [.ctb, .alc] s t)

/-- With the link UP, no entry holding a wrong position and the table as its invariant has it, frozen or not: a key
out of range is answered OUT_OF_RANGE, one that is not held EMPTY, and one whose entry holds a pin WRONG_STATE, with
nothing else changed; otherwise the entry becomes invalid, listed or discovered alike, and the response is DONE. What
an invalid entry holds is the model's own (log entry 6). -/
def Obligations.CellDropRemoves : Prop :=
  (∀ (tag : Nat) (k : Key) (s : State), s.alc.up = true →
      (k.channel > 16383 ∨ k.code > 1023) →
      ∃ t, exec (.cellDrop tag k) s = .next t ∧ answered
        { tag := tag, code := 4, status := .outOfRange, payload := .none } s.alc.cnt s t ∧
        onlyChanges [.alc] s t) ∧
  (∀ (tag : Nat) (k : Key) (s : State), s.alc.up = true →
      keyInRange k = true →
      Clean s →
      CoreInv s →
      (∀ i < 64, (cellAt s i).valid = true → (cellAt s i).key ≠ k) →
      ∃ t, exec (.cellDrop tag k) s = .next t ∧ answered { tag := tag, code := 4, status := .empty, payload := .none }
        s.alc.cnt s t ∧
        onlyChanges [.alc] s t) ∧
  (∀ (tag : Nat) (k : Key) (i : Nat) (s : State), s.alc.up = true →
      keyInRange k = true →
      Clean s →
      CoreInv s →
      i < 64 →
      (cellAt s i).valid = true →
      (cellAt s i).key = k →
      (cellAt s i).pinned = true →
      ∃ t, exec (.cellDrop tag k) s = .next t ∧ answered
        { tag := tag, code := 4, status := .wrongState, payload := .none } s.alc.cnt s t ∧
        onlyChanges [.alc] s t) ∧
  (∀ (tag : Nat) (k : Key) (i : Nat) (s : State), s.alc.up = true →
      keyInRange k = true →
      Clean s →
      CoreInv s →
      i < 64 →
      (cellAt s i).valid = true →
      (cellAt s i).key = k →
      (cellAt s i).pinned = false →
      ∃ t, exec (.cellDrop tag k) s = .next t ∧ t.ctb = { s.ctb with cells := s.ctb.cells.set i Cell.invalid } ∧
        answered { tag := tag, code := 4, status := .done, payload := .none } s.alc.cnt s t ∧
        onlyChanges [.ctb, .alc] s t)

/-- With the link UP: a request naming neither subscription is answered MALFORMED. SUB_ATTACH of a subscription that
is not DETACHED is answered WRONG_STATE and one with an initial key out of range OUT_OF_RANGE; otherwise the
subscription becomes SEARCH, with the key as its candidate and, where the claims list has room, a REACQUIRE of 32
granted frames from the next frame, or without one with no candidate and a search chain. SUB_DETACH is answered
WRONG_STATE in HANDOVER and DONE in DETACHED, with nothing changed; otherwise the subscription is DETACHED with its
record cleared, no claim of its own, its queue flushed and counted, its undamaged bearers IDLE, no cell owned or
pinned by it, no open text group of it, and its loop open; K and PARAM's and the identities' contents are kept; the
occupancy statistic is emptied if the detach ends the playout, which is the model's reading (log entry 31), and is
kept else (GLOBAL clean or marked damaged: R161 restarts it where the detach finds GLOBAL uncorrectable and the mode
changes). That WRONG_STATE comes before OUT_OF_RANGE is the model's choice (log entry 53). -/
def Obligations.AttachAndDetach : Prop :=
  (∀ (tag : Nat) (initial : Option Key) (s : State), s.alc.up = true →
      ∃ t, exec (.subAttach tag none initial) s = .next t ∧ answered
        { tag := tag, code := 5, status := .malformed, payload := .none }
        { s.alc.cnt with malformedRequests := satInc s.alc.cnt.malformedRequests } s t ∧
        onlyChanges [.alc] s t) ∧
  (∀ (tag : Nat) (u : Sub) (initial : Option Key) (s : State), s.alc.up = true →
      (s.sub u).state ≠ .detached →
      ∃ t, exec (.subAttach tag (some u) initial) s = .next t ∧ answered
        { tag := tag, code := 5, status := .wrongState, payload := .none } s.alc.cnt s t ∧
        onlyChanges [.alc] s t) ∧
  (∀ (tag : Nat) (u : Sub) (k : Key) (s : State), s.alc.up = true →
      (s.sub u).state = .detached →
      keyInRange k = false →
      ∃ t, exec (.subAttach tag (some u) (some k)) s = .next t ∧ answered
        { tag := tag, code := 5, status := .outOfRange, payload := .none } s.alc.cnt s t ∧
        onlyChanges [.alc] s t) ∧
  (∀ (tag : Nat) (u : Sub) (k : Key) (s : State), s.alc.up = true →
      (s.sub u).state = .detached →
      keyInRange k = true →
      s.rta.claims.length < 16 →
      ∃ t, exec (.subAttach tag (some u) (some k)) s = .next t ∧ (t.sub u).state = .search ∧
        (t.sub u).candidate = some k ∧
        (t.sub u).reselecting = (s.sub u).reselecting ∧
        (∃ c ∈ t.rta.claims, c.kind = .reacquire ∧ c.owner = .sub u ∧ c.start = (s.ftb.fn + 1) % 1024 ∧ 32 ≤ c.length) ∧
        responded { tag := tag, code := 5, status := .done, payload := .none } s t ∧
        t.sub u.other = s.sub u.other ∧
        onlyChanges [.ftb, .rta, .subA, .subB, .global, .pgm, .eventClass, .vpb, .alc, .tmc, .fl] s t) ∧
  (∀ (tag : Nat) (u : Sub) (s : State), s.alc.up = true →
      (s.sub u).state = .detached →
      ∃ t, exec (.subAttach tag (some u) none) s = .next t ∧ (t.sub u).state = .search ∧
        (t.sub u).candidate = none ∧
        (t.pgm.recs.get u).chain.isSome = true ∧
        responded { tag := tag, code := 5, status := .done, payload := .none } s t) ∧
  (∀ (tag : Nat) (s : State), s.alc.up = true →
      ∃ t, exec (.subDetach tag none) s = .next t ∧ answered
        { tag := tag, code := 6, status := .malformed, payload := .none }
        { s.alc.cnt with malformedRequests := satInc s.alc.cnt.malformedRequests } s t ∧
        onlyChanges [.alc] s t) ∧
  (∀ (tag : Nat) (u : Sub) (s : State), s.alc.up = true →
      (s.sub u).state = .handover →
      ∃ t, exec (.subDetach tag (some u)) s = .next t ∧ answered
        { tag := tag, code := 6, status := .wrongState, payload := .none } s.alc.cnt s t ∧
        onlyChanges [.alc] s t) ∧
  (∀ (tag : Nat) (u : Sub) (s : State), s.alc.up = true →
      (s.sub u).state = .detached →
      ∃ t, exec (.subDetach tag (some u)) s = .next t ∧ answered
        { tag := tag, code := 6, status := .done, payload := .none } s.alc.cnt s t ∧
        onlyChanges [.alc] s t) ∧
  (∀ (tag : Nat) (u : Sub) (s : State), s.alc.up = true →
      (s.sub u).state ∉ [.detached, .handover] →
      ∃ t, exec (.subDetach tag (some u)) s = .next t ∧ t.sub u =
        { s.sub u with state := .detached, serving := none, weak := false, reselecting := false, candidate := none, guard := none, notice := .storeOk, missed := 0 }
        ∧
        t.tab.identity = s.tab.identity ∧
        (∀ b : Sub, (t.tab.param.get b).val = (s.tab.param.get b).val ∧ ((s.tab.param.get b).damaged = true →
          (t.tab.param.get b).damaged = true)) ∧
        (Clean s → t.tab.param = s.tab.param) ∧
        (s.vpb.play.isSome = true → t.vpb.play = none → t.vpb.occ =
          { recent := [], count := 0, low := none, high := none }) ∧
        (s.tab.global.sound = true → (s.vpb.play.isSome = true → t.vpb.play.isSome = true) → t.vpb.occ = s.vpb.occ) ∧
        (∀ c ∈ t.rta.claims, c.owner ≠ .sub u) ∧
        t.rta.connected.get u = false ∧
        queueOf t u = [] ∧
        t.brt.cnt.flushed = satAdd s.brt.cnt.flushed (queueOf s u).length ∧
        (∀ i < 32, (bearerAt t i).damaged = false → (bearerAt t i).val.owner = u → (bearerAt t i).val.state = .idle) ∧
        (∀ i < 64, (cellAt t i).valid = true → (cellAt t i).serving.get u = false ∧ (cellAt t i).part.get u =
          CellPart.clear) ∧
        (∀ i < 12, ∀ g ∈ (groupAt t i).toList, isOpen g = true → g.sub ≠ u) ∧
        t.vpb.radioLoop ≠ some u ∧
        t.hxu.timing.get u = none ∧
        responded { tag := tag, code := 6, status := .done, payload := .none } s t)

/-- With the link UP, TEXT_TAKE on an empty ready list is answered EMPTY and nothing else changes. Otherwise it is
answered DONE with the group at the head of the ready list and its segments, which leaves the list, its record and its
slots free; the groups-taken counter is incremented, and a subscription that was FULL_SIGNALLED while four slots and a
record are then free no longer is. -/
def Obligations.TextTakeRemovesHead : Prop :=
  (∀ (tag : Nat) (s : State), s.alc.up = true →
      s.txs.ready = [] →
      ∃ t, exec (.textTake tag) s = .next t ∧ answered { tag := tag, code := 7, status := .empty, payload := .none }
        s.alc.cnt s t ∧
        onlyChanges [.alc] s t) ∧
  (∀ (tag : Nat) (i : Nat) (l : List Nat) (g : Group) (s : State), s.alc.up = true →
      s.txs.ready = i :: l →
      groupAt s i = some g →
      ∃ t, exec (.textTake tag) s = .next t ∧ t.txs.ready = l ∧
        groupAt t i = none ∧
        (∀ j < 12, j ≠ i → groupAt t j = groupAt s j) ∧
        t.txs.slots = s.txs.slots.map (fun x => if x.any (fun y => y.sub == g.sub && y.sender == g.sender && y.reference
          == g.reference) = true then none else x) ∧
        t.txs.cnt = { s.txs.cnt with taken := satInc s.txs.cnt.taken } ∧
        responded
          { tag := tag, code := 7, status := .done, payload := (.text { sub := g.sub, sender := g.sender, reference := g.reference, total := g.total, partialMark := decide (g.state = .ready true), segments := segmentsOf s g }) }
          s t ∧
        (4 ≤ freeCount t → ∀ u : Sub, (s.sub u).notice = .fullSignalled → (t.sub u).notice ≠ .fullSignalled) ∧
        (segmentsOf s g).Pairwise (fun x y => x.index ≤ y.index) ∧
        onlyChanges [.rta, .subA, .subB, .brt, .txs, .alc] s t)

/-- With the link UP, a clear option above 1 is answered OUT_OF_RANGE and nothing else changes. Otherwise, GLOBAL
holding no wrong position, the response is DONE and carries the counters and numbers as they were, the playout state,
and the number, minimum and maximum of the occupancy samples held; with option 1 every counter of every block is then
0 and the last fail record absent; the occupancy statistic restarts with option 1 or in ACCUMULATE mode; every other
state is kept. -/
def Obligations.StatsTakeReturns : Prop :=
  (∀ (tag clear : Nat) (s : State), s.alc.up = true →
      1 < clear →
      ∃ t, exec (.statsTake tag clear) s = .next t ∧ answered
        { tag := tag, code := 8, status := .outOfRange, payload := .none } s.alc.cnt s t ∧
        onlyChanges [.alc] s t) ∧
  (∀ (tag clear : Nat) (s : State), s.alc.up = true →
      clear ≤ 1 →
      s.tab.global.sound = true →
      s.alc.responses.length < 16 →
      ∃ t, exec (.statsTake tag clear) s = .next t ∧ (∃ x, responded
        { tag := tag, code := 8, status := .done, payload := (.stats x) } s t ∧ x.ftb = s.ftb.cnt ∧ x.rta = s.rta.cnt ∧
        x.ctb = s.ctb.cnt ∧ x.mfu = s.mfu ∧ x.pgm = s.pgm.cnt ∧ x.hxu = s.hxu.cnt ∧ x.brt = s.brt.cnt ∧ x.txs =
        s.txs.cnt ∧ x.vpb = s.vpb.cnt ∧ x.alc = s.alc.cnt ∧ x.tmc = s.tmc ∧ x.queued = ⟨(queueOf s .A).length, (queueOf
        s .B).length⟩ ∧ x.freeSlots = freeCount s ∧ x.freeRecords = freeRecords s ∧ x.readyGroups = s.txs.ready.length ∧
        x.events = s.alc.events.length ∧ x.mode = (effGlobal s).mode ∧ x.play = (s.vpb.play.map (fun p => if p.phase =
        .armed then PlayState.armed else if p.phase = .prefill (p.phase.next.getD 0) then .prefill else .playing)).getD
        .inactive ∧ x.samples = (if (effGlobal s).mode = .realtime then s.vpb.occ.recent.length else s.vpb.occ.count) ∧
        x.low = (if (effGlobal s).mode = .realtime then s.vpb.occ.recent.min? else s.vpb.occ.low) ∧ x.high = (if
        (effGlobal s).mode = .realtime then s.vpb.occ.recent.max? else s.vpb.occ.high)) ∧
        t.ftb = (if clear = 1 then { s.ftb with cnt := {} } else s.ftb) ∧
        t.rta = (if clear = 1 then { s.rta with cnt := {} } else s.rta) ∧
        t.ctb = (if clear = 1 then { s.ctb with cnt := {} } else s.ctb) ∧
        t.mfu = (if clear = 1 then {} else s.mfu) ∧
        t.pgm = (if clear = 1 then { s.pgm with cnt := {} } else s.pgm) ∧
        t.hxu = (if clear = 1 then { s.hxu with cnt := {} } else s.hxu) ∧
        t.brt = (if clear = 1 then { s.brt with cnt := {} } else s.brt) ∧
        t.txs = (if clear = 1 then { s.txs with cnt := {} } else s.txs) ∧
        t.vpb = { s.vpb with cnt := (if clear = 1 then {} else s.vpb.cnt), occ := (if clear = 1 ∨ (effGlobal s).mode = .accumulate then {} else s.vpb.occ) }
          ∧
        t.alc.cnt = (if clear = 1 then {} else s.alc.cnt) ∧
        t.tmc = (if clear = 1 then
          { correctable := List.replicate 7 0, uncorrectable := List.replicate 7 0, lastFail := none } else s.tmc) ∧
        linkQuiet s.alc t.alc ∧
        onlyChanges [.ftb, .rta, .ctb, .mfu, .pgm, .hxu, .brt, .txs, .vpb, .alc, .tmc] s t)

/-- With the link UP, a VOICE_LOOP of neither setting is answered OUT_OF_RANGE with the loop unchanged; otherwise it
is answered DONE and CODEC_LOOP takes the setting, LOOP_CHANGED being posted with subscription none and arguments 0
and the new state if the state changes, and nothing being posted if it does not. No other command but POWER_ON_RESET
and WARM_RESET, which open it, changes CODEC_LOOP. -/
def Obligations.VoiceLoopRequest : Prop :=
  (∀ (tag : Nat) (s : State), s.alc.up = true →
      ∃ t, exec (.voiceLoop tag none) s = .next t ∧ answered
        { tag := tag, code := 9, status := .outOfRange, payload := .none } s.alc.cnt s t ∧
        onlyChanges [.alc] s t) ∧
  (∀ (tag : Nat) (b : Bool) (s : State), s.alc.up = true →
      s.vpb.codecLoop = b →
      ∃ t, exec (.voiceLoop tag (some b)) s = .next t ∧ answered
        { tag := tag, code := 9, status := .done, payload := .none } s.alc.cnt s t ∧
        onlyChanges [.alc] s t) ∧
  (∀ (tag : Nat) (b : Bool) (s : State), s.alc.up = true →
      s.vpb.codecLoop ≠ b →
      ∃ t, exec (.voiceLoop tag (some b)) s = .next t ∧ t.vpb = { s.vpb with codecLoop := b } ∧
        responded { tag := tag, code := 9, status := .done, payload := .none } s t ∧
        (postable s .loopChanged → queued s t .loopChanged none 0 (if b then 1 else 0)) ∧
        onlyChanges [.vpb, .alc, .eventClass, .tmc] s t) ∧
  (∀ (c : Instr) (s t : State), exec c s = .next t → (∀ tag b, c ≠ .voiceLoop tag b) → c ≠ .powerOnReset →
      (∀ tag, c ≠ .warmReset tag) → t.vpb.codecLoop = s.vpb.codecLoop) ∧
    (∀ (tag : Nat) (s t : State), (exec .powerOnReset s = .next t ∨ s.alc.up = true ∧ exec (.warmReset tag) s = .next t) →
      t.vpb.codecLoop = false)

/-- With the link UP, for a table that may be injected: positions other than 1 or 2, or an index beyond the table or
above 21 of EVENT_CLASS, are answered OUT_OF_RANGE, an invalid CELL entry EMPTY and an entry marked damaged
WRONG_STATE, with nothing else changed. Otherwise the entry's content and mark are kept and its check code is wrong in
one or two positions, the response is DONE and the injection counted; no check is made and no event posted. Another
table is answered NO_SUCH_TABLE. -/
def Obligations.CheckInjectSpoils : Prop :=
  (∀ (tag table i n : Nat) (s : State), s.alc.up = true →
      6 < table →
      ∃ t, exec (.checkInject tag table i n) s = .next t ∧ answered
        { tag := tag, code := 10, status := .noSuchTable, payload := .none } s.alc.cnt s t ∧
        onlyChanges [.alc] s t) ∧
  (∀ (tag table i n : Nat) (s : State), s.alc.up = true →
      table ≤ 6 →
      (n ∉ [1, 2] ∨ ¬(∃ x ∈ (TableId.ofCode table).toList, i < (if table = 5 then 22 else x.size))) →
      ∃ t, exec (.checkInject tag table i n) s = .next t ∧ answered
        { tag := tag, code := 10, status := .outOfRange, payload := .none } s.alc.cnt s t ∧
        onlyChanges [.alc] s t) ∧
  (∀ (tag table i n : Nat) (s : State), s.alc.up = true →
      table = 6 →
      n ∈ [1, 2] →
      i < 64 →
      (cellAt s i).valid = false →
      ∃ t, exec (.checkInject tag table i n) s = .next t ∧ answered
        { tag := tag, code := 10, status := .empty, payload := .none } s.alc.cnt s t ∧
        onlyChanges [.alc] s t) ∧
  (∀ (tag table i n : Nat) (s : State), s.alc.up = true →
      table ≤ 5 →
      n ∈ [1, 2] →
      (∃ x ∈ (TableId.ofCode table).toList, i < (if table = 5 then 22 else x.size)) →
      [s.tab.global.damaged, (s.tab.param.get (if i = 0 then .A else .B)).damaged, (identityAt s i).damaged, (screenAt s
        i).damaged, (bearerAt s i).damaged, (classEntry s i).damaged].getD table false = true →
      ∃ t, exec (.checkInject tag table i n) s = .next t ∧ answered
        { tag := tag, code := 10, status := .wrongState, payload := .none } s.alc.cnt s t ∧
        onlyChanges [.alc] s t) ∧
  (∀ (tag table i n : Nat) (x : Check) (s : State), s.alc.up = true →
      table ≤ 6 →
      n ∈ [1, 2] →
      (∃ x ∈ (TableId.ofCode table).toList, i < (if table = 5 then 22 else x.size)) →
      (table = 6 → (cellAt s i).valid = true) →
      [s.tab.global.damaged, (s.tab.param.get (if i = 0 then .A else .B)).damaged, (identityAt s i).damaged, (screenAt s
        i).damaged, (bearerAt s i).damaged, (classEntry s i).damaged].getD table false = false →
      x = (if n = 1 then .one else .two) →
      ∃ t, exec (.checkInject tag table i n) s = .next t ∧ answered
        { tag := tag, code := 10, status := .done, payload := .none }
        { s.alc.cnt with injections := satInc s.alc.cnt.injections } s t ∧
        t.tab.global = (if table = 0 then { s.tab.global with check := x } else s.tab.global) ∧
        t.tab.param = (if table = 1 then s.tab.param.set (if i = 0 then .A else .B)
          { s.tab.param.get (if i = 0 then .A else .B) with check := x } else s.tab.param) ∧
        t.tab.identity = (if table = 2 then s.tab.identity.set i { identityAt s i with check := x } else s.tab.identity) ∧
        t.tab.screen = (if table = 3 then s.tab.screen.set i { screenAt s i with check := x } else s.tab.screen) ∧
        t.tab.bearer = (if table = 4 then s.tab.bearer.set i { bearerAt s i with check := x } else s.tab.bearer) ∧
        t.tab.eventClass = (if table = 5 then s.tab.eventClass.set i { classEntry s i with check := x } else
          s.tab.eventClass) ∧
        t.ctb = (if table = 6 then { s.ctb with cells := s.ctb.cells.set i { cellAt s i with check := x } } else s.ctb) ∧
        onlyChanges [.global, .param, .identity, .screen, .bearer, .eventClass, .ctb, .alc] s t)

/-- With the link UP, WARM_RESET: the DONE response joins the waiting responses, or is lost when 16 wait; both
subscriptions are DETACHED with cleared records and K derived again; claims, standing claims, queues, open text
groups, playout, loops, handover and search are gone and the front end is OFF; discovered cells are invalid and listed
ones unmeasured, without pins or marks; the counters of the other blocks and the TMC's record are 0 and absent, the
cursor at GLOBAL 0; FN, GLOBAL, PARAM, IDENTITY, SCREEN and EVENT_CLASS with their damaged marks are kept (a reading
on the way may mark one more, where an entry holds a wrong position), and so are the READY groups and their segments;
the entries of BEARER keep owner and class, the damaged ones their state too. What an invalid cell entry holds is the
model's own (log entry 6). The event queue holds START alone, with argument 1 holding 1, if its class lets it in. The
link and its forwarded frames are as they were and WAKE_REQ is deasserted. -/
def Obligations.WarmResetClears : Prop :=
  (∀ (tag : Nat) (s : State), s.alc.up = true →
      ∃ t, exec (.warmReset tag) s = .next t ∧ responseTrail t.alc = responseTrail s.alc ++ (if s.alc.responses.length <
        16 then [{ tag := tag, code := 11, status := .done, payload := .none }] else []) ∧
        (∀ u : Sub, t.sub u = { SubRec.reset with pagingKey := deriveKey t u }) ∧
        t.rta.claims = [] ∧
        t.rta.connected = ⟨false, false⟩ ∧
        t.rta.hoExec = none ∧
        t.rta.lastGranted = none ∧
        t.rta.cnt = {} ∧
        t.ftb.fn = s.ftb.fn ∧
        t.ftb.power = .off ∧
        t.ftb.held = none ∧
        t.ftb.comparePending = false ∧
        t.ftb.watchdog = none ∧
        t.ftb.wake = none ∧
        t.ftb.cnt = {} ∧
        (t.ftb.counting ≠ .marks ∨ s.ftb.power ≠ .on) ∧
        t.out.fl = s.out.fl ++ (if s.ftb.power = .off then [] else [.power false]) ∧
        t.ctb.cells = s.ctb.cells.map (fun c => if c.valid = true ∧ c.listed = true then
          { Cell.invalid with valid := true, key := c.key, listed := true, barred := c.barred, offset := c.offset } else
          Cell.invalid) ∧
        t.ctb.plru = List.replicate 16 ⟨false, false, false⟩ ∧
        t.ctb.frozen = false ∧
        t.ctb.cnt = {} ∧
        t.mfu = {} ∧
        t.pgm = State.reset.pgm ∧
        t.hxu = State.reset.hxu ∧
        t.brt = State.reset.brt ∧
        t.vpb = State.reset.vpb ∧
        t.txs.cnt = {} ∧
        (∀ i < 12, ∀ g ∈ (groupAt t i).toList, isOpen g = false) ∧
        t.txs.ready = s.txs.ready ∧
        t.tab.param = s.tab.param ∧
        t.tab.screen = s.tab.screen ∧
        (∀ i < 32, (bearerAt t i).damaged = false → (bearerAt t i).val.state = .idle) ∧
        (t.tab.global.val = s.tab.global.val ∧ (s.tab.global.damaged = true → t.tab.global = s.tab.global)) ∧
        (∀ i < 8, (identityAt t i).val = (identityAt s i).val ∧ ((identityAt s i).damaged = true → identityAt t i =
          identityAt s i)) ∧
        (∀ i < 32, (classEntry t i).val = (classEntry s i).val ∧ ((classEntry s i).damaged = true → classEntry t i =
          classEntry s i)) ∧
        (∀ i < 32, (bearerAt t i).val.owner = (bearerAt s i).val.owner ∧ (bearerAt t i).val.cls = (bearerAt s i).val.cls
          ∧ ((bearerAt s i).damaged = true → bearerAt t i = bearerAt s i)) ∧
        (Clean s → t.tab = { s.tab with bearer := t.tab.bearer } ∧ ∀ i < 32, (bearerAt t i).damaged = (bearerAt s
          i).damaged) ∧
        (TextInv s → (∀ i < 12, groupAt t i = (if (groupAt s i).all (fun g => !isOpen g) = true then groupAt s i else
          none)) ∧ t.txs.slots = s.txs.slots.map (fun x => if x.any (fun y => (List.range 12).any (fun i => (groupAt s
          i).any (fun g => !isOpen g && g.owns y))) = true then x else none)) ∧
        (s.ftb.power ≠ .on → t.ftb.counting = s.ftb.counting ∧ t.ftb.elapsed = s.ftb.elapsed ∧ t.ftb.acc = s.ftb.acc) ∧
        t.alc.linkReady = s.alc.linkReady ∧
        onlyChanges [.ftb, .rta, .subA, .subB, .global, .identity, .bearer, .eventClass, .ctb, .mfu, .pgm, .hxu, .brt,
          .txs, .vpb, .alc, .tmc, .fl] s t ∧
        t.alc.up = true ∧
        t.alc.wakeReq = false ∧
        forwardTrail t.alc = forwardTrail s.alc ∧
        t.alc.cursor = (.global, 0) ∧
        (((classEntry s 0).damaged = true ∨ (classEntry s 0).val ≠ .suppressed) → Clean s → t.alc.events =
          [{ kind := .start, cls := (if (classEntry s 0).damaged = true then .urgent else (classEntry s 0).val), sub := none, fn := s.ftb.fn, arg1 := 1, arg2 := 0 }]
          ∧ t.alc.cnt = {} ∧ t.tmc = State.reset.tmc))

/-- AL_TRANSMIT_DONE: the frame in transmission has left on the AL; a record of the event queue leaves the queue and
is counted, and WAKE_REQ stands deasserted after it. With the link UP the next frame is then the oldest waiting
response, else the oldest waiting forwarded frame, else the record at the head of the event queue. With nothing in
transmission nothing is sent, which is the model's choice (log entry 42). -/
def Obligations.TransmissionCompletes : Prop :=
  (∀ (x : Sending) (s : State), s.alc.tx = some x →
      s.alc.up = true →
      ∃ t, exec .alTransmitDone s = .next t ∧ t.out.al = s.out.al ++ [x.frame] ∧
        t.alc.events = (if headSending s.alc = true then s.alc.events.tail else s.alc.events) ∧
        t.alc.cnt = (if headSending s.alc = true then { s.alc.cnt with eventsSent := satInc s.alc.cnt.eventsSent } else
          s.alc.cnt) ∧
        (headSending s.alc = true → t.alc.wakeReq = false) ∧
        (headSending s.alc = false → t.alc.wakeReq = s.alc.wakeReq) ∧
        (∀ r l, s.alc.responses = r :: l → t.alc.tx = some ⟨.response r, false⟩ ∧ t.alc.responses = l ∧ t.alc.forwarded
          = s.alc.forwarded) ∧
        (s.alc.responses = [] → ∀ f l, s.alc.forwarded = f :: l → t.alc.tx = some ⟨.forward f, false⟩ ∧ t.alc.forwarded
          = l) ∧
        (s.alc.responses = [] → s.alc.forwarded = [] → t.alc.tx = t.alc.events.head?.map (fun e => ⟨.event e, false⟩)) ∧
        onlyChanges [.alc, .al] s t) ∧
  (∀ (s : State), s.alc.tx = none →
      exec .alTransmitDone s = .next (pump s))

/-- Posting an event whose EVENT_CLASS entry is damaged (URGENT then) or read clean: a SUPPRESSED record is only
counted; one that finds room joins the tail with the current FN; in a full queue a ROUTINE record is dropped and
counted, and an URGENT one takes the place freed by the oldest ROUTINE record that is not being sent, which is
counted, or is dropped and counted where there is none. -/
def Obligations.PostHandlesByClass : Prop :=
  ∀ (kind : EventKind) (u : Option Sub) (a1 a2 : Int) (s : State) (c : EventClass) (e : EventRec),
    ((classEntry s kind.code).damaged = true ∧ c = .urgent ∨
      (classEntry s kind.code).damaged = false ∧ (classEntry s kind.code).check = .good ∧ c = (classEntry s
        kind.code).val) →
    e = { kind := kind, cls := c, sub := u, fn := s.ftb.fn, arg1 := a1, arg2 := a2 } →
    onlyChanges [.alc] s (post kind u a1 a2 s) ∧
    (c = .suppressed → (post kind u a1 a2 s).alc =
      { s.alc with cnt := { s.alc.cnt with eventsSuppressed := satInc s.alc.cnt.eventsSuppressed } }) ∧
    (c ≠ .suppressed → s.alc.events.length < 32 → (post kind u a1 a2 s).alc.events = s.alc.events ++ [e] ∧
      (post kind u a1 a2 s).alc.cnt = s.alc.cnt) ∧
    (c = .routine → 32 ≤ s.alc.events.length → (post kind u a1 a2 s).alc =
      { s.alc with cnt := { s.alc.cnt with eventsDropped := satInc s.alc.cnt.eventsDropped } }) ∧
    (c = .urgent → 32 ≤ s.alc.events.length → ∀ l r x, s.alc.events = l ++ x :: r → x.cls = .routine →
      (∀ y ∈ (if headSending s.alc = true then l.tail else l), y.cls ≠ .routine) → (headSending s.alc = true → l ≠ []) →
      (post kind u a1 a2 s).alc.events = l ++ r ++ [e] ∧
      (post kind u a1 a2 s).alc.cnt.eventsDisplaced = satInc s.alc.cnt.eventsDisplaced) ∧
    (c = .urgent → 32 ≤ s.alc.events.length →
      (∀ y ∈ (if headSending s.alc = true then s.alc.events.tail else s.alc.events), y.cls ≠ .routine) →
      (post kind u a1 a2 s).alc =
        { s.alc with cnt := { s.alc.cnt with eventsDropped := satInc s.alc.cnt.eventsDropped } })

/-- The candidates of a grant decision are the standing claims, HANDOVER_EXEC before CONNECTED, and after them in list
order the timed claims that cover FN and every begun REACQUIRE, without empty REPLYs; their priorities are those of
R41, PARAM read as it stands. The winner is one of them, none has a higher priority, none of its priority has another
owner than the last-granted one unless it has too, and it stands first among those that remain; there is a winner
whenever there is a candidate. Its owner becomes the last-granted one, and its GRANT names FN, owner, purpose and key:
the target for HANDOVER, the candidate for REACQUIRE, none for SEARCH, the owner's serving key else. It is sent at
once while ON, held while WARMING, held after POWER(ON) while OFF. Without a winner nothing is sent or held. Before it
every other candidate loses the frame, then the voice decision is made (the model's order, log entry 5): a CONNECTED
claim's loss is counted, HANDOVER_EXEC's is not; a timed claim keeps its later frames, a DELIVERY's lost one being
counted; one that loses its final frame is missed, leaves the list, is counted by its kind and renewed, a missed watch
raising its owner's count by one up to S. A sent GRANT, in a settled state: a watch ends with its count 0, the read
occasion set, TUNE_AWAY posted where due, a REPLY with a STORE_READY that is due placed in the next frame, and the
next watch in the list; a REPLY ends with its frame sent, a STORE_READY in it making the notice STORE_OK, and one
emptied since its decision with no frame (that the GRANT is still sent is log entry 55); a gap ends and the next
follows, and a DELIVERY or SEARCH at its final frame; another timed claim stays with one granted frame more; for a
CONNECTED claim the head of its owner's queue is sent, unless in HANDOVER, before the bound voice frame (log entry
59). None of these counts as missed. -/
def Obligations.GrantGoesToTheWinner : Prop :=
  (∀ (s : State) (w : Cand), w ∈ candidates s ↔ w.prio = priority s w.owner w.kind ∧
    (w.claim = none ∧ (w.kind = .handoverExec ∧ s.rta.hoExec.map Owner.sub = some w.owner ∨
        w.kind = .connected ∧ ∃ u : Sub, w.owner = .sub u ∧ s.rta.connected.get u = true) ∨
      ∃ c ∈ s.rta.claims, w.claim = some c ∧ w.owner = c.owner ∧ w.kind = c.kind ∧ ¬(c.kind = .reply ∧ c.items = []) ∧
        if c.kind = .reacquire then c.begun = true else (s.ftb.fn + 1024 - c.start % 1024) % 1024 < c.length)) ∧
  (∀ (s : State), (candidates s).filterMap (fun w => w.claim) = s.rta.claims.filter (isCandidate s.ftb.fn) ∧
    (candidates s).Pairwise (fun v w => (v.claim.isSome = true → w.claim.isSome = true) ∧
      (w.claim = none → w.kind ≠ .handoverExec))) ∧
  (∀ (s : State) (u : Sub), priority s (.sub u) .handoverExec = 7 ∧ priority s (.sub u) .reacquire = 6 ∧
    priority s (.sub u) .pageWatch = (if (s.sub u).missed = (effParam s u).starvation then 5 else 2) ∧
    (∀ k : ClaimKind, k = .delivery ∨ k = .reply → priority s (.sub u) k =
      (if (s.sub u.other).state = .connected ∧ (effParam s u.other).protectCall = true then 3 else 5)) ∧
    priority s (.sub u) .measGap = (if (s.sub u).state = .connected ∨ (s.sub u).weak = true then 5 else 3) ∧
    priority s (.sub u) .connected = 4 ∧ priority s (.sub u) .search = 1 ∧ priority s .common .search = 1) ∧
  (∀ (s : State), (candidates s = [] → winner s = none) ∧ (candidates s ≠ [] → (winner s).isSome = true) ∧
    ∀ w, winner s = some w → w ∈ candidates s ∧ w.prio = priority s w.owner w.kind ∧
      (∀ c ∈ candidates s, c.prio ≤ w.prio) ∧
      (∀ c ∈ candidates s, c.prio = w.prio → some c.owner ≠ s.rta.lastGranted → some w.owner ≠ s.rta.lastGranted) ∧
      ∀ l r, candidates s = l ++ w :: r → w ∉ l → ∀ c ∈ l, c.prio = w.prio →
        some c.owner = s.rta.lastGranted ∧ some w.owner ≠ s.rta.lastGranted) ∧
  (∀ (s : State), winner s = none → (grantDecision s).rta = s.rta ∧ (grantDecision s).ftb = s.ftb ∧ (grantDecision
    s).out = s.out) ∧
  (∀ (s : State) (w : Cand), winner s = some w → (grantDecision s).rta.lastGranted = some w.owner ∧
    ∃ g : Grant, g.fn = s.ftb.fn ∧ g.owner = w.owner ∧ g.purpose = w.kind ∧ g.serial = w.claim.map (fun c => c.serial) ∧
      (∃ x, grantDecision s = passGrant g (voiceDecision (some w) x) ∧ x = ((candidates s).filter (fun c => c != w)).foldl
        loseFrame { s with rta := { s.rta with lastGranted := some w.owner } }) ∧
      (s.ftb.power = .on → ∃ x, grantDecision s = grantSent g x) ∧
      (w.kind = .handoverExec → g.key = s.hxu.run.map (fun r => r.target)) ∧ (w.kind = .search → g.key = none) ∧
      (∀ u : Sub, w.owner = .sub u → (w.kind = .reacquire → g.key = (s.sub u).candidate) ∧
        (w.kind ∉ [.handoverExec, .search, .reacquire] → g.key = (s.sub u).serving.map (fun v => v.key))) ∧
      (s.ftb.power = .on → (s.out.fl ++ [.grant g]) <+: (grantDecision s).out.fl) ∧
      (s.ftb.power = .warming → (grantDecision s).ftb.held = some g ∧ (grantDecision s).out.fl = s.out.fl) ∧
      (s.ftb.power = .off → (grantDecision s).ftb.held = some g ∧ (grantDecision s).ftb.power = .warming ∧
        (grantDecision s).out.fl = s.out.fl ++ [.power true])) ∧
  (∀ (s : State) (w : Cand), w.claim = none → loseFrame s w =
    (if w.kind = .connected then
      { s with rta := { s.rta with cnt := { s.rta.cnt with connectedLost := satInc s.rta.cnt.connectedLost } } } else
        s)) ∧
  (∀ (s : State) (w : Cand) (c : Claim), w.claim = some c →
    (c.kind = .reacquire ∨ fnDist c.start s.ftb.fn + 1 ≠ c.length) → loseFrame s w =
    (if c.kind = .delivery then { s with rta := { s.rta with cnt :=
      { s.rta.cnt with deliveryFramesLost := satInc s.rta.cnt.deliveryFramesLost } } } else s)) ∧
  (∀ (s : State) (w : Cand) (c : Claim), w.claim = some c → c ∈ s.rta.claims → Settled s → c.kind ≠ .reacquire →
    fnDist c.start s.ftb.fn + 1 = c.length → missedOf c s (loseFrame s w)) ∧
  (∀ (g : Grant) (s : State), (s.out.fl ++ [.grant g]) <+: (grantSent g s).out.fl) ∧
  (∀ (g : Grant) (s : State) (u : Sub), g.serial = none → g.purpose = .connected → g.owner = .sub u →
    queueOf (grantSent g s) u = (if (s.sub u).state = .handover then queueOf s u else (queueOf s u).tail) ∧
    ∀ f l, (s.sub u).state ≠ .handover → queueOf s u = f :: l →
      (s.out.fl ++ [.grant g, .uplink u g.fn f (freeCount s) (freeRecords s)]) <+: (grantSent g s).out.fl ∧
      (grantSent g s).brt.cnt.sent.get u = satInc (s.brt.cnt.sent.get u)) ∧
  (∀ (g : Grant) (s : State) (c : Claim), g.serial = some c.serial → c ∈ s.rta.claims → Settled s →
    s.rta.claims.length < 16 → s.ftb.power = .on → g.fn = s.ftb.fn →
    ((endsGranted g.fn c = true → ∀ d ∈ (grantSent g s).rta.claims, d.serial ≠ c.serial) ∧
      (endsGranted g.fn c = false →
        { c with granted := min (c.granted + 1) c.length } ∈ (grantSent g s).rta.claims)) ∧
    (∀ u : Sub, c.kind = .pageWatch → c.owner = .sub u → ((grantSent g s).sub u).missed = 0 ∧
      ((grantSent g s).pgm.recs.get u).readOccasion = some g.fn ∧
      ((s.sub u).state = .camped → watchPlaced u s (grantSent g s)) ∧
      ((s.sub u).notice = .readyDue → (∀ d ∈ s.rta.claims, ¬(d.kind = .reply ∧ d.owner = .sub u)) →
        ∃ d ∈ (grantSent g s).rta.claims, d.kind = .reply ∧ d.owner = .sub u ∧ d.start = (g.fn + 1) % 1024 ∧
          d.items = [.storeReady u]) ∧
      ∀ k, g.tuneAway = some k → (grantSent g s).rta.cnt.tuneAways = satInc s.rta.cnt.tuneAways ∧
        (postable s .tuneAway → queued s (grantSent g s) .tuneAway (some u) k u.other.code)) ∧
    (∀ u : Sub, c.kind = .reply → c.owner = .sub u →
      (grantSent g s).out.fl = s.out.fl ++ [.grant g] ++
        (if c.items = [] then [] else [.reply u g.fn c.items (freeCount s) (freeRecords s)]) ∧
      (.storeReady u ∈ c.items → ((grantSent g s).sub u).notice = .storeOk)) ∧
    (∀ u : Sub, c.kind = .measGap → c.owner = .sub u → gapPlaced u s (grantSent g s)) ∧
    (c.kind = .search → endsGranted g.fn c = true → searchPlaced s (grantSent g s)) ∧
    missedCounts (grantSent g s) = missedCounts s)
end

