-- ==== Sys2Proof/Laws/State.lean ====
section
/-! SUPPORT. What each update of one block leaves as it was, field by field, and the small lemmas of the pairs. -/

namespace Sys2Proof.Machine

@[simp] theorem two_get_set {α : Type} (t : Two α) (u v : Sub) (x : α) :
    (t.set u x).get v = if v = u then x else t.get v := by
  cases u <;> cases v <;> rfl

@[simp] theorem modFtb_ftb (s : State) (f : Ftb → Ftb) : (s.modFtb f).ftb = f s.ftb := rfl
@[simp] theorem modFtb_rta (s : State) (f : Ftb → Ftb) : (s.modFtb f).rta = s.rta := rfl
@[simp] theorem modFtb_scs (s : State) (f : Ftb → Ftb) : (s.modFtb f).scs = s.scs := rfl
@[simp] theorem modFtb_tab (s : State) (f : Ftb → Ftb) : (s.modFtb f).tab = s.tab := rfl
@[simp] theorem modFtb_ctb (s : State) (f : Ftb → Ftb) : (s.modFtb f).ctb = s.ctb := rfl
@[simp] theorem modFtb_mfu (s : State) (f : Ftb → Ftb) : (s.modFtb f).mfu = s.mfu := rfl
@[simp] theorem modFtb_pgm (s : State) (f : Ftb → Ftb) : (s.modFtb f).pgm = s.pgm := rfl
@[simp] theorem modFtb_hxu (s : State) (f : Ftb → Ftb) : (s.modFtb f).hxu = s.hxu := rfl
@[simp] theorem modFtb_brt (s : State) (f : Ftb → Ftb) : (s.modFtb f).brt = s.brt := rfl
@[simp] theorem modFtb_txs (s : State) (f : Ftb → Ftb) : (s.modFtb f).txs = s.txs := rfl
@[simp] theorem modFtb_vpb (s : State) (f : Ftb → Ftb) : (s.modFtb f).vpb = s.vpb := rfl
@[simp] theorem modFtb_alc (s : State) (f : Ftb → Ftb) : (s.modFtb f).alc = s.alc := rfl
@[simp] theorem modFtb_tmc (s : State) (f : Ftb → Ftb) : (s.modFtb f).tmc = s.tmc := rfl
@[simp] theorem modFtb_out (s : State) (f : Ftb → Ftb) : (s.modFtb f).out = s.out := rfl
@[simp] theorem modFtb_pending (s : State) (f : Ftb → Ftb) : (s.modFtb f).pending = s.pending := rfl
@[simp] theorem modFtb_sub (s : State) (f : Ftb → Ftb) (u : Sub) : (s.modFtb f).sub u = s.sub u := rfl

@[simp] theorem modRta_ftb (s : State) (f : Rta → Rta) : (s.modRta f).ftb = s.ftb := rfl
@[simp] theorem modRta_rta (s : State) (f : Rta → Rta) : (s.modRta f).rta = f s.rta := rfl
@[simp] theorem modRta_scs (s : State) (f : Rta → Rta) : (s.modRta f).scs = s.scs := rfl
@[simp] theorem modRta_tab (s : State) (f : Rta → Rta) : (s.modRta f).tab = s.tab := rfl
@[simp] theorem modRta_ctb (s : State) (f : Rta → Rta) : (s.modRta f).ctb = s.ctb := rfl
@[simp] theorem modRta_mfu (s : State) (f : Rta → Rta) : (s.modRta f).mfu = s.mfu := rfl
@[simp] theorem modRta_pgm (s : State) (f : Rta → Rta) : (s.modRta f).pgm = s.pgm := rfl
@[simp] theorem modRta_hxu (s : State) (f : Rta → Rta) : (s.modRta f).hxu = s.hxu := rfl
@[simp] theorem modRta_brt (s : State) (f : Rta → Rta) : (s.modRta f).brt = s.brt := rfl
@[simp] theorem modRta_txs (s : State) (f : Rta → Rta) : (s.modRta f).txs = s.txs := rfl
@[simp] theorem modRta_vpb (s : State) (f : Rta → Rta) : (s.modRta f).vpb = s.vpb := rfl
@[simp] theorem modRta_alc (s : State) (f : Rta → Rta) : (s.modRta f).alc = s.alc := rfl
@[simp] theorem modRta_tmc (s : State) (f : Rta → Rta) : (s.modRta f).tmc = s.tmc := rfl
@[simp] theorem modRta_out (s : State) (f : Rta → Rta) : (s.modRta f).out = s.out := rfl
@[simp] theorem modRta_pending (s : State) (f : Rta → Rta) : (s.modRta f).pending = s.pending := rfl
@[simp] theorem modRta_sub (s : State) (f : Rta → Rta) (u : Sub) : (s.modRta f).sub u = s.sub u := rfl

@[simp] theorem modScs_ftb (s : State) (f : Two SubRec → Two SubRec) : (s.modScs f).ftb = s.ftb := rfl
@[simp] theorem modScs_rta (s : State) (f : Two SubRec → Two SubRec) : (s.modScs f).rta = s.rta := rfl
@[simp] theorem modScs_scs (s : State) (f : Two SubRec → Two SubRec) : (s.modScs f).scs = f s.scs := rfl
@[simp] theorem modScs_tab (s : State) (f : Two SubRec → Two SubRec) : (s.modScs f).tab = s.tab := rfl
@[simp] theorem modScs_ctb (s : State) (f : Two SubRec → Two SubRec) : (s.modScs f).ctb = s.ctb := rfl
@[simp] theorem modScs_mfu (s : State) (f : Two SubRec → Two SubRec) : (s.modScs f).mfu = s.mfu := rfl
@[simp] theorem modScs_pgm (s : State) (f : Two SubRec → Two SubRec) : (s.modScs f).pgm = s.pgm := rfl
@[simp] theorem modScs_hxu (s : State) (f : Two SubRec → Two SubRec) : (s.modScs f).hxu = s.hxu := rfl
@[simp] theorem modScs_brt (s : State) (f : Two SubRec → Two SubRec) : (s.modScs f).brt = s.brt := rfl
@[simp] theorem modScs_txs (s : State) (f : Two SubRec → Two SubRec) : (s.modScs f).txs = s.txs := rfl
@[simp] theorem modScs_vpb (s : State) (f : Two SubRec → Two SubRec) : (s.modScs f).vpb = s.vpb := rfl
@[simp] theorem modScs_alc (s : State) (f : Two SubRec → Two SubRec) : (s.modScs f).alc = s.alc := rfl
@[simp] theorem modScs_tmc (s : State) (f : Two SubRec → Two SubRec) : (s.modScs f).tmc = s.tmc := rfl
@[simp] theorem modScs_out (s : State) (f : Two SubRec → Two SubRec) : (s.modScs f).out = s.out := rfl
@[simp] theorem modScs_pending (s : State) (f : Two SubRec → Two SubRec) : (s.modScs f).pending = s.pending := rfl

@[simp] theorem modTab_ftb (s : State) (f : Tables → Tables) : (s.modTab f).ftb = s.ftb := rfl
@[simp] theorem modTab_rta (s : State) (f : Tables → Tables) : (s.modTab f).rta = s.rta := rfl
@[simp] theorem modTab_scs (s : State) (f : Tables → Tables) : (s.modTab f).scs = s.scs := rfl
@[simp] theorem modTab_tab (s : State) (f : Tables → Tables) : (s.modTab f).tab = f s.tab := rfl
@[simp] theorem modTab_ctb (s : State) (f : Tables → Tables) : (s.modTab f).ctb = s.ctb := rfl
@[simp] theorem modTab_mfu (s : State) (f : Tables → Tables) : (s.modTab f).mfu = s.mfu := rfl
@[simp] theorem modTab_pgm (s : State) (f : Tables → Tables) : (s.modTab f).pgm = s.pgm := rfl
@[simp] theorem modTab_hxu (s : State) (f : Tables → Tables) : (s.modTab f).hxu = s.hxu := rfl
@[simp] theorem modTab_brt (s : State) (f : Tables → Tables) : (s.modTab f).brt = s.brt := rfl
@[simp] theorem modTab_txs (s : State) (f : Tables → Tables) : (s.modTab f).txs = s.txs := rfl
@[simp] theorem modTab_vpb (s : State) (f : Tables → Tables) : (s.modTab f).vpb = s.vpb := rfl
@[simp] theorem modTab_alc (s : State) (f : Tables → Tables) : (s.modTab f).alc = s.alc := rfl
@[simp] theorem modTab_tmc (s : State) (f : Tables → Tables) : (s.modTab f).tmc = s.tmc := rfl
@[simp] theorem modTab_out (s : State) (f : Tables → Tables) : (s.modTab f).out = s.out := rfl
@[simp] theorem modTab_pending (s : State) (f : Tables → Tables) : (s.modTab f).pending = s.pending := rfl
@[simp] theorem modTab_sub (s : State) (f : Tables → Tables) (u : Sub) : (s.modTab f).sub u = s.sub u := rfl

@[simp] theorem modCtb_ftb (s : State) (f : Ctb → Ctb) : (s.modCtb f).ftb = s.ftb := rfl
@[simp] theorem modCtb_rta (s : State) (f : Ctb → Ctb) : (s.modCtb f).rta = s.rta := rfl
@[simp] theorem modCtb_scs (s : State) (f : Ctb → Ctb) : (s.modCtb f).scs = s.scs := rfl
@[simp] theorem modCtb_tab (s : State) (f : Ctb → Ctb) : (s.modCtb f).tab = s.tab := rfl
@[simp] theorem modCtb_ctb (s : State) (f : Ctb → Ctb) : (s.modCtb f).ctb = f s.ctb := rfl
@[simp] theorem modCtb_mfu (s : State) (f : Ctb → Ctb) : (s.modCtb f).mfu = s.mfu := rfl
@[simp] theorem modCtb_pgm (s : State) (f : Ctb → Ctb) : (s.modCtb f).pgm = s.pgm := rfl
@[simp] theorem modCtb_hxu (s : State) (f : Ctb → Ctb) : (s.modCtb f).hxu = s.hxu := rfl
@[simp] theorem modCtb_brt (s : State) (f : Ctb → Ctb) : (s.modCtb f).brt = s.brt := rfl
@[simp] theorem modCtb_txs (s : State) (f : Ctb → Ctb) : (s.modCtb f).txs = s.txs := rfl
@[simp] theorem modCtb_vpb (s : State) (f : Ctb → Ctb) : (s.modCtb f).vpb = s.vpb := rfl
@[simp] theorem modCtb_alc (s : State) (f : Ctb → Ctb) : (s.modCtb f).alc = s.alc := rfl
@[simp] theorem modCtb_tmc (s : State) (f : Ctb → Ctb) : (s.modCtb f).tmc = s.tmc := rfl
@[simp] theorem modCtb_out (s : State) (f : Ctb → Ctb) : (s.modCtb f).out = s.out := rfl
@[simp] theorem modCtb_pending (s : State) (f : Ctb → Ctb) : (s.modCtb f).pending = s.pending := rfl
@[simp] theorem modCtb_sub (s : State) (f : Ctb → Ctb) (u : Sub) : (s.modCtb f).sub u = s.sub u := rfl

@[simp] theorem modMfu_ftb (s : State) (f : Mfu → Mfu) : (s.modMfu f).ftb = s.ftb := rfl
@[simp] theorem modMfu_rta (s : State) (f : Mfu → Mfu) : (s.modMfu f).rta = s.rta := rfl
@[simp] theorem modMfu_scs (s : State) (f : Mfu → Mfu) : (s.modMfu f).scs = s.scs := rfl
@[simp] theorem modMfu_tab (s : State) (f : Mfu → Mfu) : (s.modMfu f).tab = s.tab := rfl
@[simp] theorem modMfu_ctb (s : State) (f : Mfu → Mfu) : (s.modMfu f).ctb = s.ctb := rfl
@[simp] theorem modMfu_mfu (s : State) (f : Mfu → Mfu) : (s.modMfu f).mfu = f s.mfu := rfl
@[simp] theorem modMfu_pgm (s : State) (f : Mfu → Mfu) : (s.modMfu f).pgm = s.pgm := rfl
@[simp] theorem modMfu_hxu (s : State) (f : Mfu → Mfu) : (s.modMfu f).hxu = s.hxu := rfl
@[simp] theorem modMfu_brt (s : State) (f : Mfu → Mfu) : (s.modMfu f).brt = s.brt := rfl
@[simp] theorem modMfu_txs (s : State) (f : Mfu → Mfu) : (s.modMfu f).txs = s.txs := rfl
@[simp] theorem modMfu_vpb (s : State) (f : Mfu → Mfu) : (s.modMfu f).vpb = s.vpb := rfl
@[simp] theorem modMfu_alc (s : State) (f : Mfu → Mfu) : (s.modMfu f).alc = s.alc := rfl
@[simp] theorem modMfu_tmc (s : State) (f : Mfu → Mfu) : (s.modMfu f).tmc = s.tmc := rfl
@[simp] theorem modMfu_out (s : State) (f : Mfu → Mfu) : (s.modMfu f).out = s.out := rfl
@[simp] theorem modMfu_pending (s : State) (f : Mfu → Mfu) : (s.modMfu f).pending = s.pending := rfl
@[simp] theorem modMfu_sub (s : State) (f : Mfu → Mfu) (u : Sub) : (s.modMfu f).sub u = s.sub u := rfl

@[simp] theorem modPgm_ftb (s : State) (f : Pgm → Pgm) : (s.modPgm f).ftb = s.ftb := rfl
@[simp] theorem modPgm_rta (s : State) (f : Pgm → Pgm) : (s.modPgm f).rta = s.rta := rfl
@[simp] theorem modPgm_scs (s : State) (f : Pgm → Pgm) : (s.modPgm f).scs = s.scs := rfl
@[simp] theorem modPgm_tab (s : State) (f : Pgm → Pgm) : (s.modPgm f).tab = s.tab := rfl
@[simp] theorem modPgm_ctb (s : State) (f : Pgm → Pgm) : (s.modPgm f).ctb = s.ctb := rfl
@[simp] theorem modPgm_mfu (s : State) (f : Pgm → Pgm) : (s.modPgm f).mfu = s.mfu := rfl
@[simp] theorem modPgm_pgm (s : State) (f : Pgm → Pgm) : (s.modPgm f).pgm = f s.pgm := rfl
@[simp] theorem modPgm_hxu (s : State) (f : Pgm → Pgm) : (s.modPgm f).hxu = s.hxu := rfl
@[simp] theorem modPgm_brt (s : State) (f : Pgm → Pgm) : (s.modPgm f).brt = s.brt := rfl
@[simp] theorem modPgm_txs (s : State) (f : Pgm → Pgm) : (s.modPgm f).txs = s.txs := rfl
@[simp] theorem modPgm_vpb (s : State) (f : Pgm → Pgm) : (s.modPgm f).vpb = s.vpb := rfl
@[simp] theorem modPgm_alc (s : State) (f : Pgm → Pgm) : (s.modPgm f).alc = s.alc := rfl
@[simp] theorem modPgm_tmc (s : State) (f : Pgm → Pgm) : (s.modPgm f).tmc = s.tmc := rfl
@[simp] theorem modPgm_out (s : State) (f : Pgm → Pgm) : (s.modPgm f).out = s.out := rfl
@[simp] theorem modPgm_pending (s : State) (f : Pgm → Pgm) : (s.modPgm f).pending = s.pending := rfl
@[simp] theorem modPgm_sub (s : State) (f : Pgm → Pgm) (u : Sub) : (s.modPgm f).sub u = s.sub u := rfl

@[simp] theorem modHxu_ftb (s : State) (f : Hxu → Hxu) : (s.modHxu f).ftb = s.ftb := rfl
@[simp] theorem modHxu_rta (s : State) (f : Hxu → Hxu) : (s.modHxu f).rta = s.rta := rfl
@[simp] theorem modHxu_scs (s : State) (f : Hxu → Hxu) : (s.modHxu f).scs = s.scs := rfl
@[simp] theorem modHxu_tab (s : State) (f : Hxu → Hxu) : (s.modHxu f).tab = s.tab := rfl
@[simp] theorem modHxu_ctb (s : State) (f : Hxu → Hxu) : (s.modHxu f).ctb = s.ctb := rfl
@[simp] theorem modHxu_mfu (s : State) (f : Hxu → Hxu) : (s.modHxu f).mfu = s.mfu := rfl
@[simp] theorem modHxu_pgm (s : State) (f : Hxu → Hxu) : (s.modHxu f).pgm = s.pgm := rfl
@[simp] theorem modHxu_hxu (s : State) (f : Hxu → Hxu) : (s.modHxu f).hxu = f s.hxu := rfl
@[simp] theorem modHxu_brt (s : State) (f : Hxu → Hxu) : (s.modHxu f).brt = s.brt := rfl
@[simp] theorem modHxu_txs (s : State) (f : Hxu → Hxu) : (s.modHxu f).txs = s.txs := rfl
@[simp] theorem modHxu_vpb (s : State) (f : Hxu → Hxu) : (s.modHxu f).vpb = s.vpb := rfl
@[simp] theorem modHxu_alc (s : State) (f : Hxu → Hxu) : (s.modHxu f).alc = s.alc := rfl
@[simp] theorem modHxu_tmc (s : State) (f : Hxu → Hxu) : (s.modHxu f).tmc = s.tmc := rfl
@[simp] theorem modHxu_out (s : State) (f : Hxu → Hxu) : (s.modHxu f).out = s.out := rfl
@[simp] theorem modHxu_pending (s : State) (f : Hxu → Hxu) : (s.modHxu f).pending = s.pending := rfl
@[simp] theorem modHxu_sub (s : State) (f : Hxu → Hxu) (u : Sub) : (s.modHxu f).sub u = s.sub u := rfl

@[simp] theorem modBrt_ftb (s : State) (f : Brt → Brt) : (s.modBrt f).ftb = s.ftb := rfl
@[simp] theorem modBrt_rta (s : State) (f : Brt → Brt) : (s.modBrt f).rta = s.rta := rfl
@[simp] theorem modBrt_scs (s : State) (f : Brt → Brt) : (s.modBrt f).scs = s.scs := rfl
@[simp] theorem modBrt_tab (s : State) (f : Brt → Brt) : (s.modBrt f).tab = s.tab := rfl
@[simp] theorem modBrt_ctb (s : State) (f : Brt → Brt) : (s.modBrt f).ctb = s.ctb := rfl
@[simp] theorem modBrt_mfu (s : State) (f : Brt → Brt) : (s.modBrt f).mfu = s.mfu := rfl
@[simp] theorem modBrt_pgm (s : State) (f : Brt → Brt) : (s.modBrt f).pgm = s.pgm := rfl
@[simp] theorem modBrt_hxu (s : State) (f : Brt → Brt) : (s.modBrt f).hxu = s.hxu := rfl
@[simp] theorem modBrt_brt (s : State) (f : Brt → Brt) : (s.modBrt f).brt = f s.brt := rfl
@[simp] theorem modBrt_txs (s : State) (f : Brt → Brt) : (s.modBrt f).txs = s.txs := rfl
@[simp] theorem modBrt_vpb (s : State) (f : Brt → Brt) : (s.modBrt f).vpb = s.vpb := rfl
@[simp] theorem modBrt_alc (s : State) (f : Brt → Brt) : (s.modBrt f).alc = s.alc := rfl
@[simp] theorem modBrt_tmc (s : State) (f : Brt → Brt) : (s.modBrt f).tmc = s.tmc := rfl
@[simp] theorem modBrt_out (s : State) (f : Brt → Brt) : (s.modBrt f).out = s.out := rfl
@[simp] theorem modBrt_pending (s : State) (f : Brt → Brt) : (s.modBrt f).pending = s.pending := rfl
@[simp] theorem modBrt_sub (s : State) (f : Brt → Brt) (u : Sub) : (s.modBrt f).sub u = s.sub u := rfl

@[simp] theorem modTxs_ftb (s : State) (f : Txs → Txs) : (s.modTxs f).ftb = s.ftb := rfl
@[simp] theorem modTxs_rta (s : State) (f : Txs → Txs) : (s.modTxs f).rta = s.rta := rfl
@[simp] theorem modTxs_scs (s : State) (f : Txs → Txs) : (s.modTxs f).scs = s.scs := rfl
@[simp] theorem modTxs_tab (s : State) (f : Txs → Txs) : (s.modTxs f).tab = s.tab := rfl
@[simp] theorem modTxs_ctb (s : State) (f : Txs → Txs) : (s.modTxs f).ctb = s.ctb := rfl
@[simp] theorem modTxs_mfu (s : State) (f : Txs → Txs) : (s.modTxs f).mfu = s.mfu := rfl
@[simp] theorem modTxs_pgm (s : State) (f : Txs → Txs) : (s.modTxs f).pgm = s.pgm := rfl
@[simp] theorem modTxs_hxu (s : State) (f : Txs → Txs) : (s.modTxs f).hxu = s.hxu := rfl
@[simp] theorem modTxs_brt (s : State) (f : Txs → Txs) : (s.modTxs f).brt = s.brt := rfl
@[simp] theorem modTxs_txs (s : State) (f : Txs → Txs) : (s.modTxs f).txs = f s.txs := rfl
@[simp] theorem modTxs_vpb (s : State) (f : Txs → Txs) : (s.modTxs f).vpb = s.vpb := rfl
@[simp] theorem modTxs_alc (s : State) (f : Txs → Txs) : (s.modTxs f).alc = s.alc := rfl
@[simp] theorem modTxs_tmc (s : State) (f : Txs → Txs) : (s.modTxs f).tmc = s.tmc := rfl
@[simp] theorem modTxs_out (s : State) (f : Txs → Txs) : (s.modTxs f).out = s.out := rfl
@[simp] theorem modTxs_pending (s : State) (f : Txs → Txs) : (s.modTxs f).pending = s.pending := rfl
@[simp] theorem modTxs_sub (s : State) (f : Txs → Txs) (u : Sub) : (s.modTxs f).sub u = s.sub u := rfl

@[simp] theorem modVpb_ftb (s : State) (f : Vpb → Vpb) : (s.modVpb f).ftb = s.ftb := rfl
@[simp] theorem modVpb_rta (s : State) (f : Vpb → Vpb) : (s.modVpb f).rta = s.rta := rfl
@[simp] theorem modVpb_scs (s : State) (f : Vpb → Vpb) : (s.modVpb f).scs = s.scs := rfl
@[simp] theorem modVpb_tab (s : State) (f : Vpb → Vpb) : (s.modVpb f).tab = s.tab := rfl
@[simp] theorem modVpb_ctb (s : State) (f : Vpb → Vpb) : (s.modVpb f).ctb = s.ctb := rfl
@[simp] theorem modVpb_mfu (s : State) (f : Vpb → Vpb) : (s.modVpb f).mfu = s.mfu := rfl
@[simp] theorem modVpb_pgm (s : State) (f : Vpb → Vpb) : (s.modVpb f).pgm = s.pgm := rfl
@[simp] theorem modVpb_hxu (s : State) (f : Vpb → Vpb) : (s.modVpb f).hxu = s.hxu := rfl
@[simp] theorem modVpb_brt (s : State) (f : Vpb → Vpb) : (s.modVpb f).brt = s.brt := rfl
@[simp] theorem modVpb_txs (s : State) (f : Vpb → Vpb) : (s.modVpb f).txs = s.txs := rfl
@[simp] theorem modVpb_vpb (s : State) (f : Vpb → Vpb) : (s.modVpb f).vpb = f s.vpb := rfl
@[simp] theorem modVpb_alc (s : State) (f : Vpb → Vpb) : (s.modVpb f).alc = s.alc := rfl
@[simp] theorem modVpb_tmc (s : State) (f : Vpb → Vpb) : (s.modVpb f).tmc = s.tmc := rfl
@[simp] theorem modVpb_out (s : State) (f : Vpb → Vpb) : (s.modVpb f).out = s.out := rfl
@[simp] theorem modVpb_pending (s : State) (f : Vpb → Vpb) : (s.modVpb f).pending = s.pending := rfl
@[simp] theorem modVpb_sub (s : State) (f : Vpb → Vpb) (u : Sub) : (s.modVpb f).sub u = s.sub u := rfl

@[simp] theorem modAlc_ftb (s : State) (f : Alc → Alc) : (s.modAlc f).ftb = s.ftb := rfl
@[simp] theorem modAlc_rta (s : State) (f : Alc → Alc) : (s.modAlc f).rta = s.rta := rfl
@[simp] theorem modAlc_scs (s : State) (f : Alc → Alc) : (s.modAlc f).scs = s.scs := rfl
@[simp] theorem modAlc_tab (s : State) (f : Alc → Alc) : (s.modAlc f).tab = s.tab := rfl
@[simp] theorem modAlc_ctb (s : State) (f : Alc → Alc) : (s.modAlc f).ctb = s.ctb := rfl
@[simp] theorem modAlc_mfu (s : State) (f : Alc → Alc) : (s.modAlc f).mfu = s.mfu := rfl
@[simp] theorem modAlc_pgm (s : State) (f : Alc → Alc) : (s.modAlc f).pgm = s.pgm := rfl
@[simp] theorem modAlc_hxu (s : State) (f : Alc → Alc) : (s.modAlc f).hxu = s.hxu := rfl
@[simp] theorem modAlc_brt (s : State) (f : Alc → Alc) : (s.modAlc f).brt = s.brt := rfl
@[simp] theorem modAlc_txs (s : State) (f : Alc → Alc) : (s.modAlc f).txs = s.txs := rfl
@[simp] theorem modAlc_vpb (s : State) (f : Alc → Alc) : (s.modAlc f).vpb = s.vpb := rfl
@[simp] theorem modAlc_alc (s : State) (f : Alc → Alc) : (s.modAlc f).alc = f s.alc := rfl
@[simp] theorem modAlc_tmc (s : State) (f : Alc → Alc) : (s.modAlc f).tmc = s.tmc := rfl
@[simp] theorem modAlc_out (s : State) (f : Alc → Alc) : (s.modAlc f).out = s.out := rfl
@[simp] theorem modAlc_pending (s : State) (f : Alc → Alc) : (s.modAlc f).pending = s.pending := rfl
@[simp] theorem modAlc_sub (s : State) (f : Alc → Alc) (u : Sub) : (s.modAlc f).sub u = s.sub u := rfl

@[simp] theorem modTmc_ftb (s : State) (f : Tmc → Tmc) : (s.modTmc f).ftb = s.ftb := rfl
@[simp] theorem modTmc_rta (s : State) (f : Tmc → Tmc) : (s.modTmc f).rta = s.rta := rfl
@[simp] theorem modTmc_scs (s : State) (f : Tmc → Tmc) : (s.modTmc f).scs = s.scs := rfl
@[simp] theorem modTmc_tab (s : State) (f : Tmc → Tmc) : (s.modTmc f).tab = s.tab := rfl
@[simp] theorem modTmc_ctb (s : State) (f : Tmc → Tmc) : (s.modTmc f).ctb = s.ctb := rfl
@[simp] theorem modTmc_mfu (s : State) (f : Tmc → Tmc) : (s.modTmc f).mfu = s.mfu := rfl
@[simp] theorem modTmc_pgm (s : State) (f : Tmc → Tmc) : (s.modTmc f).pgm = s.pgm := rfl
@[simp] theorem modTmc_hxu (s : State) (f : Tmc → Tmc) : (s.modTmc f).hxu = s.hxu := rfl
@[simp] theorem modTmc_brt (s : State) (f : Tmc → Tmc) : (s.modTmc f).brt = s.brt := rfl
@[simp] theorem modTmc_txs (s : State) (f : Tmc → Tmc) : (s.modTmc f).txs = s.txs := rfl
@[simp] theorem modTmc_vpb (s : State) (f : Tmc → Tmc) : (s.modTmc f).vpb = s.vpb := rfl
@[simp] theorem modTmc_alc (s : State) (f : Tmc → Tmc) : (s.modTmc f).alc = s.alc := rfl
@[simp] theorem modTmc_tmc (s : State) (f : Tmc → Tmc) : (s.modTmc f).tmc = f s.tmc := rfl
@[simp] theorem modTmc_out (s : State) (f : Tmc → Tmc) : (s.modTmc f).out = s.out := rfl
@[simp] theorem modTmc_pending (s : State) (f : Tmc → Tmc) : (s.modTmc f).pending = s.pending := rfl
@[simp] theorem modTmc_sub (s : State) (f : Tmc → Tmc) (u : Sub) : (s.modTmc f).sub u = s.sub u := rfl

@[simp] theorem modOut_ftb (s : State) (f : Out → Out) : (s.modOut f).ftb = s.ftb := rfl
@[simp] theorem modOut_rta (s : State) (f : Out → Out) : (s.modOut f).rta = s.rta := rfl
@[simp] theorem modOut_scs (s : State) (f : Out → Out) : (s.modOut f).scs = s.scs := rfl
@[simp] theorem modOut_tab (s : State) (f : Out → Out) : (s.modOut f).tab = s.tab := rfl
@[simp] theorem modOut_ctb (s : State) (f : Out → Out) : (s.modOut f).ctb = s.ctb := rfl
@[simp] theorem modOut_mfu (s : State) (f : Out → Out) : (s.modOut f).mfu = s.mfu := rfl
@[simp] theorem modOut_pgm (s : State) (f : Out → Out) : (s.modOut f).pgm = s.pgm := rfl
@[simp] theorem modOut_hxu (s : State) (f : Out → Out) : (s.modOut f).hxu = s.hxu := rfl
@[simp] theorem modOut_brt (s : State) (f : Out → Out) : (s.modOut f).brt = s.brt := rfl
@[simp] theorem modOut_txs (s : State) (f : Out → Out) : (s.modOut f).txs = s.txs := rfl
@[simp] theorem modOut_vpb (s : State) (f : Out → Out) : (s.modOut f).vpb = s.vpb := rfl
@[simp] theorem modOut_alc (s : State) (f : Out → Out) : (s.modOut f).alc = s.alc := rfl
@[simp] theorem modOut_tmc (s : State) (f : Out → Out) : (s.modOut f).tmc = s.tmc := rfl
@[simp] theorem modOut_out (s : State) (f : Out → Out) : (s.modOut f).out = f s.out := rfl
@[simp] theorem modOut_pending (s : State) (f : Out → Out) : (s.modOut f).pending = s.pending := rfl
@[simp] theorem modOut_sub (s : State) (f : Out → Out) (u : Sub) : (s.modOut f).sub u = s.sub u := rfl

@[simp] theorem modSub_ftb (s : State) (b : Sub) (f : SubRec → SubRec) : (s.modSub b f).ftb = s.ftb := rfl
@[simp] theorem modSub_rta (s : State) (b : Sub) (f : SubRec → SubRec) : (s.modSub b f).rta = s.rta := rfl
@[simp] theorem modSub_tab (s : State) (b : Sub) (f : SubRec → SubRec) : (s.modSub b f).tab = s.tab := rfl
@[simp] theorem modSub_ctb (s : State) (b : Sub) (f : SubRec → SubRec) : (s.modSub b f).ctb = s.ctb := rfl
@[simp] theorem modSub_mfu (s : State) (b : Sub) (f : SubRec → SubRec) : (s.modSub b f).mfu = s.mfu := rfl
@[simp] theorem modSub_pgm (s : State) (b : Sub) (f : SubRec → SubRec) : (s.modSub b f).pgm = s.pgm := rfl
@[simp] theorem modSub_hxu (s : State) (b : Sub) (f : SubRec → SubRec) : (s.modSub b f).hxu = s.hxu := rfl
@[simp] theorem modSub_brt (s : State) (b : Sub) (f : SubRec → SubRec) : (s.modSub b f).brt = s.brt := rfl
@[simp] theorem modSub_txs (s : State) (b : Sub) (f : SubRec → SubRec) : (s.modSub b f).txs = s.txs := rfl
@[simp] theorem modSub_vpb (s : State) (b : Sub) (f : SubRec → SubRec) : (s.modSub b f).vpb = s.vpb := rfl
@[simp] theorem modSub_alc (s : State) (b : Sub) (f : SubRec → SubRec) : (s.modSub b f).alc = s.alc := rfl
@[simp] theorem modSub_tmc (s : State) (b : Sub) (f : SubRec → SubRec) : (s.modSub b f).tmc = s.tmc := rfl
@[simp] theorem modSub_out (s : State) (b : Sub) (f : SubRec → SubRec) : (s.modSub b f).out = s.out := rfl
@[simp] theorem modSub_pending (s : State) (b : Sub) (f : SubRec → SubRec) : (s.modSub b f).pending = s.pending := rfl
@[simp] theorem modSub_sub (s : State) (b u : Sub) (f : SubRec → SubRec) :
    (s.modSub b f).sub u = if u = b then f (s.sub u) else s.sub u := by
  cases b <;> cases u <;> rfl

@[simp] theorem modRec_ftb (s : State) (b : Sub) (f : PgmRec → PgmRec) : (s.modRec b f).ftb = s.ftb := rfl
@[simp] theorem modRec_rta (s : State) (b : Sub) (f : PgmRec → PgmRec) : (s.modRec b f).rta = s.rta := rfl
@[simp] theorem modRec_scs (s : State) (b : Sub) (f : PgmRec → PgmRec) : (s.modRec b f).scs = s.scs := rfl
@[simp] theorem modRec_tab (s : State) (b : Sub) (f : PgmRec → PgmRec) : (s.modRec b f).tab = s.tab := rfl
@[simp] theorem modRec_ctb (s : State) (b : Sub) (f : PgmRec → PgmRec) : (s.modRec b f).ctb = s.ctb := rfl
@[simp] theorem modRec_mfu (s : State) (b : Sub) (f : PgmRec → PgmRec) : (s.modRec b f).mfu = s.mfu := rfl
@[simp] theorem modRec_hxu (s : State) (b : Sub) (f : PgmRec → PgmRec) : (s.modRec b f).hxu = s.hxu := rfl
@[simp] theorem modRec_brt (s : State) (b : Sub) (f : PgmRec → PgmRec) : (s.modRec b f).brt = s.brt := rfl
@[simp] theorem modRec_txs (s : State) (b : Sub) (f : PgmRec → PgmRec) : (s.modRec b f).txs = s.txs := rfl
@[simp] theorem modRec_vpb (s : State) (b : Sub) (f : PgmRec → PgmRec) : (s.modRec b f).vpb = s.vpb := rfl
@[simp] theorem modRec_alc (s : State) (b : Sub) (f : PgmRec → PgmRec) : (s.modRec b f).alc = s.alc := rfl
@[simp] theorem modRec_tmc (s : State) (b : Sub) (f : PgmRec → PgmRec) : (s.modRec b f).tmc = s.tmc := rfl
@[simp] theorem modRec_out (s : State) (b : Sub) (f : PgmRec → PgmRec) : (s.modRec b f).out = s.out := rfl
@[simp] theorem modRec_pending (s : State) (b : Sub) (f : PgmRec → PgmRec) : (s.modRec b f).pending = s.pending := rfl
@[simp] theorem modRec_sub (s : State) (b u : Sub) (f : PgmRec → PgmRec) : (s.modRec b f).sub u = s.sub u := rfl
@[simp] theorem modRec_recs (s : State) (b : Sub) (f : PgmRec → PgmRec) :
    (s.modRec b f).pgm.recs = s.pgm.recs.set b (f (s.pgm.recs.get b)) := rfl

end Sys2Proof.Machine
end

