-- ==== Sys2Proof/Laws/Frames.lean ====
section
/-! SUPPORT. The relation "changes at most these pieces", with the lemmas by which it is built up: it is what every shared
operation is described by in Laws/Ops.lean. -/

namespace Sys2Proof.Machine

/-- A part of the state, or one field that many operations on its block leave alone. -/
inductive Piece where
  | part (p : Part)
  | acc | hoExec | connected | state | frozen | runSub | radioLoop | link
deriving DecidableEq, Repr

def Piece.same (p : Piece) (s t : State) : Prop :=
  match p with
  | .part p => p.same s t
  | .acc => t.ftb.acc = s.ftb.acc
  | .hoExec => t.rta.hoExec = s.rta.hoExec
  | .connected => t.rta.connected = s.rta.connected
  | .state => ∀ u : Sub, (t.sub u).state = (s.sub u).state
  | .frozen => t.ctb.frozen = s.ctb.frozen
  | .runSub => t.hxu.run.map (fun r => r.sub) = s.hxu.run.map (fun r => r.sub)
  | .radioLoop => t.vpb.radioLoop = s.vpb.radioLoop
  | .link => t.alc.up = s.alc.up ∧ t.alc.linkReady = s.alc.linkReady

/-- Every piece outside the list reads the same. -/
structure changes (l : List Piece) (s t : State) : Prop where
  keep : ∀ p : Piece, p ∉ l → p.same s t

theorem changes.refl (l : List Piece) (s : State) : changes l s s := by
  refine ⟨fun p _ => ?_⟩
  cases p with
  | part q => cases q <;> rfl
  | link => exact ⟨rfl, rfl⟩
  | state => exact fun _ => rfl
  | acc => rfl
  | hoExec => rfl
  | connected => rfl
  | frozen => rfl
  | runSub => rfl
  | radioLoop => rfl

theorem Piece.same_trans (p : Piece) {s t u : State} (h : p.same s t) (k : p.same t u) : p.same s u := by
  cases p with
  | part q => cases q <;> exact Eq.trans k h
  | link => exact ⟨k.1.trans h.1, k.2.trans h.2⟩
  | state => exact fun u => (k u).trans (h u)
  | acc => exact Eq.trans k h
  | hoExec => exact Eq.trans k h
  | connected => exact Eq.trans k h
  | frozen => exact Eq.trans k h
  | runSub => exact Eq.trans k h
  | radioLoop => exact Eq.trans k h

theorem changes.trans {l : List Piece} {s t u : State} (h : changes l s t) (k : changes l t u) : changes l s u :=
  ⟨fun p hp => p.same_trans (h.keep p hp) (k.keep p hp)⟩

/-- The list `m` stands within `l`. -/
def within (m l : List Piece) : Bool := m.all (fun p => l.contains p)

theorem changes.mono {m l : List Piece} {s t : State} (h : changes m s t) (hm : within m l = true) : changes l s t := by
  refine ⟨fun p hp => h.keep p (fun hq => hp ?_)⟩
  have := List.all_eq_true.mp hm p hq
  simpa using this

/-- One more operation, known by its own list. -/
theorem changes.step {m l : List Piece} {s t u : State} (k : changes m t u) (hm : within m l = true)
    (h : changes l s t) :
    changes l s u := h.trans (k.mono hm)

theorem changes.of_fst {α : Type} {l : List Piece} {s t : State} {p : State × α} {x : α} (hp : p = (t, x))
    (h : changes l s p.1) : changes l s t := by
  subst hp
  exact h

theorem changes.foldl {α : Type} {l : List Piece} {s : State} {f : State → α → State} {as : List α} {t : State}
    (hf : ∀ (t : State) (a : α), changes l s t → changes l s (f t a)) (h : changes l s t) :
    changes l s (as.foldl f t) := by
  induction as generalizing t with
  | nil => exact h
  | cons a as ih => exact ih (hf t a h)

theorem changes.foldl_fst {α β : Type} {l : List Piece} {s : State} {f : State × β → α → State × β} {as : List α}
    {p : State × β} (hf : ∀ (p : State × β) (a : α), changes l s p.1 → changes l s (f p a).1) (h : changes l s p.1) :
    changes l s (as.foldl f p).1 := by
  induction as generalizing p with
  | nil => exact h
  | cons a as ih => exact ih (hf p a h)

theorem changes.writeFrom {α : Type} {l : List Piece} {s : State} {f : Nat → α → State → State} {i : Nat} {as : List α}
    {t : State} (hf : ∀ (i : Nat) (a : α) (t : State), changes l s t → changes l s (f i a t)) (h : changes l s t) :
    changes l s (writeFrom f i as t) := by
  induction as generalizing i t with
  | nil => exact h
  | cons a as ih => exact ih (hf i a t h)

/-- The parts, as an obligation's frame names them. -/
theorem changes.only {l : List Piece} {m : List Part} {s t : State} (h : changes l s t)
    (hm : ∀ p : Part, Piece.part p ∈ l → p ∈ m) : onlyChanges m s t :=
  fun p hp => h.keep (.part p) (fun hq => hp (hm p hq))

/-! ## Updates of one block -/

theorem changes.modFtb {l : List Piece} {s t : State} {f : Ftb → Ftb} (hl : l.contains (.part .ftb) = true)
    (h1 : l.contains (.part .fn) = true ∨ ∀ x, (f x).fn = x.fn)
    (h2 : l.contains .acc = true ∨ ∀ x, (f x).acc = x.acc)
    (h : changes l s t) : changes l s (t.modFtb f) := by
  refine h.trans ⟨fun p hp => ?_⟩
  cases p with
  | part q =>
    cases q <;> first | rfl | skip
    · exact (h1.resolve_left (fun e => hp (by simpa using e))) t.ftb
    · exact absurd (by simpa using hl) hp
  | acc => exact (h2.resolve_left (fun e => hp (by simpa using e))) t.ftb
  | link => exact ⟨rfl, rfl⟩
  | state => exact fun _ => rfl
  | hoExec => rfl
  | connected => rfl
  | frozen => rfl
  | runSub => rfl
  | radioLoop => rfl

theorem changes.modRta {l : List Piece} {s t : State} {f : Rta → Rta} (hl : l.contains (.part .rta) = true)
    (h1 : l.contains .hoExec = true ∨ ∀ x, (f x).hoExec = x.hoExec)
    (h2 : l.contains .connected = true ∨ ∀ x, (f x).connected = x.connected)
    (h : changes l s t) : changes l s (t.modRta f) := by
  refine h.trans ⟨fun p hp => ?_⟩
  cases p with
  | part q =>
    cases q <;> first | rfl | skip
    · exact absurd (by simpa using hl) hp
  | hoExec => exact (h1.resolve_left (fun e => hp (by simpa using e))) t.rta
  | connected => exact (h2.resolve_left (fun e => hp (by simpa using e))) t.rta
  | acc => rfl
  | link => exact ⟨rfl, rfl⟩
  | state => exact fun _ => rfl
  | frozen => rfl
  | runSub => rfl
  | radioLoop => rfl

theorem changes.modSub {l : List Piece} {s t : State} {b : Sub} {f : SubRec → SubRec}
    (hl : (l.contains (.part .subA) && l.contains (.part .subB)) = true)
    (h1 : l.contains .state = true ∨ ∀ x, (f x).state = x.state)
    (h : changes l s t) : changes l s (t.modSub b f) := by
  refine h.trans ⟨fun p hp => ?_⟩
  simp only [Bool.and_eq_true] at hl
  cases p with
  | part q =>
    cases q <;> first | rfl | skip
    · exact absurd (by simpa using hl.1) hp
    · exact absurd (by simpa using hl.2) hp
  | state =>
    intro u
    have := (h1.resolve_left (fun e => hp (by simpa using e))) (t.sub u)
    rw [modSub_sub]
    split
    · exact this
    · rfl
  | acc => rfl
  | link => exact ⟨rfl, rfl⟩
  | hoExec => rfl
  | connected => rfl
  | frozen => rfl
  | runSub => rfl
  | radioLoop => rfl

theorem changes.modCtb {l : List Piece} {s t : State} {f : Ctb → Ctb} (hl : l.contains (.part .ctb) = true)
    (h1 : l.contains .frozen = true ∨ ∀ x, (f x).frozen = x.frozen)
    (h : changes l s t) : changes l s (t.modCtb f) := by
  refine h.trans ⟨fun p hp => ?_⟩
  cases p with
  | part q =>
    cases q <;> first | rfl | skip
    · exact absurd (by simpa using hl) hp
  | frozen => exact (h1.resolve_left (fun e => hp (by simpa using e))) t.ctb
  | acc => rfl
  | link => exact ⟨rfl, rfl⟩
  | state => exact fun _ => rfl
  | hoExec => rfl
  | connected => rfl
  | runSub => rfl
  | radioLoop => rfl

theorem changes.modHxu {l : List Piece} {s t : State} {f : Hxu → Hxu} (hl : l.contains (.part .hxu) = true)
    (h1 : l.contains .runSub = true ∨ ∀ x, (f x).run.map (fun r => r.sub) = x.run.map (fun r => r.sub))
    (h : changes l s t) : changes l s (t.modHxu f) := by
  refine h.trans ⟨fun p hp => ?_⟩
  cases p with
  | part q =>
    cases q <;> first | rfl | skip
    · exact absurd (by simpa using hl) hp
  | runSub => exact (h1.resolve_left (fun e => hp (by simpa using e))) t.hxu
  | acc => rfl
  | link => exact ⟨rfl, rfl⟩
  | state => exact fun _ => rfl
  | hoExec => rfl
  | connected => rfl
  | frozen => rfl
  | radioLoop => rfl

theorem changes.modVpb {l : List Piece} {s t : State} {f : Vpb → Vpb} (hl : l.contains (.part .vpb) = true)
    (h1 : l.contains .radioLoop = true ∨ ∀ x, (f x).radioLoop = x.radioLoop)
    (h : changes l s t) : changes l s (t.modVpb f) := by
  refine h.trans ⟨fun p hp => ?_⟩
  cases p with
  | part q =>
    cases q <;> first | rfl | skip
    · exact absurd (by simpa using hl) hp
  | radioLoop => exact (h1.resolve_left (fun e => hp (by simpa using e))) t.vpb
  | acc => rfl
  | link => exact ⟨rfl, rfl⟩
  | state => exact fun _ => rfl
  | hoExec => rfl
  | connected => rfl
  | frozen => rfl
  | runSub => rfl

theorem changes.modAlc {l : List Piece} {s t : State} {f : Alc → Alc} (hl : l.contains (.part .alc) = true)
    (h1 : l.contains .link = true ∨ ∀ x, (f x).up = x.up ∧ (f x).linkReady = x.linkReady)
    (h : changes l s t) : changes l s (t.modAlc f) := by
  refine h.trans ⟨fun p hp => ?_⟩
  cases p with
  | part q =>
    cases q <;> first | rfl | skip
    · exact absurd (by simpa using hl) hp
  | link => exact (h1.resolve_left (fun e => hp (by simpa using e))) t.alc
  | acc => rfl
  | state => exact fun _ => rfl
  | hoExec => rfl
  | connected => rfl
  | frozen => rfl
  | runSub => rfl
  | radioLoop => rfl

/-- A block without a piece of its own below the part. -/
theorem changes.whole {l : List Piece} {s t u : State} (q : Part) (hl : l.contains (.part q) = true)
    (h : changes [.part q] t u) (k : changes l s t) : changes l s u :=
  k.trans (h.mono (by simpa [within] using hl))

theorem modMfu_changes (t : State) (f : Mfu → Mfu) : changes [.part .mfu] t (t.modMfu f) := by
  refine ⟨fun p hp => ?_⟩
  cases p with
  | part q => cases q <;> first | rfl | exact absurd (List.mem_singleton.mpr rfl) hp
  | link => exact ⟨rfl, rfl⟩
  | state => exact fun _ => rfl
  | acc => rfl
  | hoExec => rfl
  | connected => rfl
  | frozen => rfl
  | runSub => rfl
  | radioLoop => rfl

theorem modPgm_changes (t : State) (f : Pgm → Pgm) : changes [.part .pgm] t (t.modPgm f) := by
  refine ⟨fun p hp => ?_⟩
  cases p with
  | part q => cases q <;> first | rfl | exact absurd (List.mem_singleton.mpr rfl) hp
  | link => exact ⟨rfl, rfl⟩
  | state => exact fun _ => rfl
  | acc => rfl
  | hoExec => rfl
  | connected => rfl
  | frozen => rfl
  | runSub => rfl
  | radioLoop => rfl

theorem modBrt_changes (t : State) (f : Brt → Brt) : changes [.part .brt] t (t.modBrt f) := by
  refine ⟨fun p hp => ?_⟩
  cases p with
  | part q => cases q <;> first | rfl | exact absurd (List.mem_singleton.mpr rfl) hp
  | link => exact ⟨rfl, rfl⟩
  | state => exact fun _ => rfl
  | acc => rfl
  | hoExec => rfl
  | connected => rfl
  | frozen => rfl
  | runSub => rfl
  | radioLoop => rfl

theorem modTxs_changes (t : State) (f : Txs → Txs) : changes [.part .txs] t (t.modTxs f) := by
  refine ⟨fun p hp => ?_⟩
  cases p with
  | part q => cases q <;> first | rfl | exact absurd (List.mem_singleton.mpr rfl) hp
  | link => exact ⟨rfl, rfl⟩
  | state => exact fun _ => rfl
  | acc => rfl
  | hoExec => rfl
  | connected => rfl
  | frozen => rfl
  | runSub => rfl
  | radioLoop => rfl

theorem modTmc_changes (t : State) (f : Tmc → Tmc) : changes [.part .tmc] t (t.modTmc f) := by
  refine ⟨fun p hp => ?_⟩
  cases p with
  | part q => cases q <;> first | rfl | exact absurd (List.mem_singleton.mpr rfl) hp
  | link => exact ⟨rfl, rfl⟩
  | state => exact fun _ => rfl
  | acc => rfl
  | hoExec => rfl
  | connected => rfl
  | frozen => rfl
  | runSub => rfl
  | radioLoop => rfl

theorem changes.modTab {l : List Piece} {s t : State} {f : Tables → Tables}
    (h0 : l.contains (.part .global) = true ∨ ∀ x, (f x).global = x.global)
    (h1 : l.contains (.part .param) = true ∨ ∀ x, (f x).param = x.param)
    (h2 : l.contains (.part .identity) = true ∨ ∀ x, (f x).identity = x.identity)
    (h3 : l.contains (.part .screen) = true ∨ ∀ x, (f x).screen = x.screen)
    (h4 : l.contains (.part .bearer) = true ∨ ∀ x, (f x).bearer = x.bearer)
    (h5 : l.contains (.part .eventClass) = true ∨ ∀ x, (f x).eventClass = x.eventClass)
    (h : changes l s t) : changes l s (t.modTab f) := by
  refine h.trans ⟨fun p hp => ?_⟩
  cases p with
  | part q =>
    cases q <;> first | rfl | skip
    · exact (h0.resolve_left (fun e => hp (by simpa using e))) t.tab
    · exact (h1.resolve_left (fun e => hp (by simpa using e))) t.tab
    · exact (h2.resolve_left (fun e => hp (by simpa using e))) t.tab
    · exact (h3.resolve_left (fun e => hp (by simpa using e))) t.tab
    · exact (h4.resolve_left (fun e => hp (by simpa using e))) t.tab
    · exact (h5.resolve_left (fun e => hp (by simpa using e))) t.tab
  | link => exact ⟨rfl, rfl⟩
  | state => exact fun _ => rfl
  | acc => rfl
  | hoExec => rfl
  | connected => rfl
  | frozen => rfl
  | runSub => rfl
  | radioLoop => rfl

theorem changes.modOut {l : List Piece} {s t : State} {f : Out → Out}
    (h0 : l.contains (.part .fl) = true ∨ ∀ x, (f x).fl = x.fl)
    (h1 : l.contains (.part .al) = true ∨ ∀ x, (f x).al = x.al)
    (h2 : l.contains (.part .codec) = true ∨ ∀ x, (f x).codec = x.codec)
    (h : changes l s t) : changes l s (t.modOut f) := by
  refine h.trans ⟨fun p hp => ?_⟩
  cases p with
  | part q =>
    cases q <;> first | rfl | skip
    · exact (h0.resolve_left (fun e => hp (by simpa using e))) t.out
    · exact (h1.resolve_left (fun e => hp (by simpa using e))) t.out
    · exact (h2.resolve_left (fun e => hp (by simpa using e))) t.out
  | link => exact ⟨rfl, rfl⟩
  | state => exact fun _ => rfl
  | acc => rfl
  | hoExec => rfl
  | connected => rfl
  | frozen => rfl
  | runSub => rfl
  | radioLoop => rfl

/-! ## Counters and paging records -/

theorem cntFtb_changes (s : State) (f : FtbCounters → FtbCounters) : changes [.part .ftb] s (s.cntFtb f) :=
  changes.modFtb (by decide) (.inr (fun _ => rfl)) (.inr (fun _ => rfl)) (.refl ..)

theorem cntRta_changes (s : State) (f : RtaCounters → RtaCounters) : changes [.part .rta] s (s.cntRta f) :=
  changes.modRta (by decide) (.inr (fun _ => rfl)) (.inr (fun _ => rfl)) (.refl ..)

theorem cntCtb_changes (s : State) (f : CtbCounters → CtbCounters) : changes [.part .ctb] s (s.cntCtb f) :=
  changes.modCtb (by decide) (.inr (fun _ => rfl)) (.refl ..)

theorem cntHxu_changes (s : State) (f : HxuCounters → HxuCounters) : changes [.part .hxu] s (s.cntHxu f) :=
  changes.modHxu (by decide) (.inr (fun _ => rfl)) (.refl ..)

theorem cntVpb_changes (s : State) (f : VpbCounters → VpbCounters) : changes [.part .vpb] s (s.cntVpb f) :=
  changes.modVpb (by decide) (.inr (fun _ => rfl)) (.refl ..)

theorem cntAlc_changes (s : State) (f : AlcCounters → AlcCounters) : changes [.part .alc] s (s.cntAlc f) :=
  changes.modAlc (by decide) (.inr (fun _ => ⟨rfl, rfl⟩)) (.refl ..)

theorem cntPgm_changes (s : State) (f : PgmCounters → PgmCounters) : changes [.part .pgm] s (s.cntPgm f) := modPgm_changes ..

theorem cntBrt_changes (s : State) (f : BrtCounters → BrtCounters) : changes [.part .brt] s (s.cntBrt f) := modBrt_changes ..

theorem cntTxs_changes (s : State) (f : TxsCounters → TxsCounters) : changes [.part .txs] s (s.cntTxs f) := modTxs_changes ..

theorem modRec_changes (s : State) (b : Sub) (f : PgmRec → PgmRec) : changes [.part .pgm] s (s.modRec b f) := modPgm_changes ..

/-! ## Choices -/

theorem changes.ite {l : List Piece} {s a b : State} {c : Prop} {_ : Decidable c} (ha : c → changes l s a) (hb : ¬ c → changes l s b) :
    changes l s (if c then a else b) := by
  by_cases h : c
  · rw [if_pos h]
    exact ha h
  · rw [if_neg h]
    exact hb h

theorem changes.ite_fst {α : Type} {l : List Piece} {s : State} {a b : State × α} {c : Prop} {_ : Decidable c}
    (ha : c → changes l s a.1) (hb : ¬ c → changes l s b.1) : changes l s (if c then a else b).1 := by
  by_cases h : c
  · rw [if_pos h]
    exact ha h
  · rw [if_neg h]
    exact hb h

end Sys2Proof.Machine
end

