-- ==== Sys2Proof/Laws/Ops.lean ====
section
/-! SUPPORT. What each operation of Machine/Ops.lean and Timebase.lean can change at most. -/

namespace Sys2Proof.Machine

-- One lemma at a time: elaborated together they would each take a thread.
set_option Elab.async false

/-! ## The pieces that the common uses change -/

/-- What an event changes (R179). -/
abbrev eventUse : List Piece := [.part .eventClass, .part .alc, .part .tmc]

/-- What a use of GLOBAL changes, the wake instant with it (R22). -/
abbrev globalUse : List Piece := [.part .ftb, .part .global, .part .eventClass, .part .vpb, .part .alc, .part .tmc, .part .fl]

/-- What a change of the claims list changes. -/
abbrev listUse : List Piece :=
  [.part .ftb, .part .rta, .part .global, .part .eventClass, .part .pgm, .part .vpb, .part .alc, .part .tmc, .part .fl]

/-- What a use of a PARAM entry or of a cell entry changes (R6, R71, R72). -/
abbrev paramUse : List Piece :=
  [.part .ftb, .part .rta, .part .subA, .part .subB, .part .global, .part .param, .part .eventClass, .part .ctb, .part .pgm,
    .part .hxu, .part .vpb, .part .alc, .part .tmc, .part .fl]

theorem sendFl_changes (x : FlFrame) (s : State) : changes [.part .fl] s (sendFl x s) := by
  unfold sendFl
  repeat' first
    | (with_reducible apply changes.refl)
    | (with_reducible assumption)
    | (with_reducible apply changes.modOut)
    | exact .inl (by decide)
    | exact .inr (fun _ => rfl)

theorem sendCodec_changes (x : CodecOut) (s : State) : changes [.part .codec] s (sendCodec x s) := by
  unfold sendCodec
  repeat' first
    | (with_reducible apply changes.refl)
    | (with_reducible assumption)
    | (with_reducible apply changes.modOut)
    | exact .inl (by decide)
    | exact .inr (fun _ => rfl)

theorem setWake_changes (s : State) : changes [.part .alc] s (setWake s) := by
  unfold setWake
  repeat' first
    | (with_reducible apply changes.refl)
    | (with_reducible assumption)
    | (with_reducible apply changes.modAlc)
    | decide
    | exact .inl (by decide)
    | exact .inr (fun _ => ⟨rfl, rfl⟩)

theorem enqueueEvent_changes (e : EventRec) (s : State) : changes [.part .alc] s (enqueueEvent e s) := by
  unfold enqueueEvent
  repeat' first
    | (with_reducible apply changes.refl)
    | (with_reducible assumption)
    | split
    | (with_reducible apply changes.modAlc)
    | (with_reducible apply changes.step (cntAlc_changes ..))
    | (with_reducible apply changes.step (setWake_changes ..))
    | decide
    | exact .inl (by decide)
    | exact .inr (fun _ => ⟨rfl, rfl⟩)

theorem tmcRecord_changes (t : TableId) (i : Nat) (s : State) : changes [.part .tmc] s (tmcRecord t i s) := by
  unfold tmcRecord
  repeat' first
    | (with_reducible apply changes.refl)
    | (with_reducible assumption)
    | (with_reducible apply changes.step (modTmc_changes ..))
    | decide

theorem tmcCorrect_changes (t : TableId) (s : State) : changes [.part .tmc] s (tmcCorrect t s) := by
  unfold tmcCorrect
  repeat' first
    | (with_reducible apply changes.refl)
    | (with_reducible assumption)
    | (with_reducible apply changes.step (modTmc_changes ..))
    | decide

theorem setClassEntry_changes (k : Nat) (e : Checked EventClass) (s : State) :
    changes [.part .eventClass] s (setClassEntry k e s) := by
  unfold setClassEntry
  repeat' first
    | (with_reducible apply changes.refl)
    | (with_reducible assumption)
    | (with_reducible apply changes.modTab)
    | exact .inl (by decide)
    | exact .inr (fun _ => rfl)

theorem postFuel_changes (n : Nat) (kind : EventKind) (b : Option Sub) (a1 a2 : Int) (s : State) :
    changes eventUse s (postFuel n kind b a1 a2 s) := by
  induction n generalizing kind b a1 a2 s with
  | zero => exact changes.refl _ _
  | succ n ih =>
    unfold postFuel
    dsimp only
    split
    · exact (enqueueEvent_changes ..).mono (by decide)
    · split
      · exact (enqueueEvent_changes ..).mono (by decide)
      · exact changes.step (enqueueEvent_changes ..) (by decide) (changes.step (tmcCorrect_changes ..) (by decide)
          ((setClassEntry_changes ..).mono (by decide)))
      · exact changes.trans (changes.step (enqueueEvent_changes ..) (by decide) (changes.step (tmcRecord_changes ..) (by decide)
          ((setClassEntry_changes ..).mono (by decide)))) (ih ..)

theorem post_changes (kind : EventKind) (sub : Option Sub) (a1 a2 : Int) (s : State) :
    changes eventUse s (post kind sub a1 a2 s) := by
  unfold post
  repeat' first
    | (with_reducible apply changes.refl)
    | (with_reducible assumption)
    | (with_reducible apply changes.step (postFuel_changes ..))
    | decide

theorem tmcFail_changes (t : TableId) (i : Nat) (s : State) : changes eventUse s (tmcFail t i s) := by
  unfold tmcFail
  repeat' first
    | (with_reducible apply changes.refl)
    | (with_reducible assumption)
    | (with_reducible apply changes.step (post_changes ..))
    | (with_reducible apply changes.step (tmcRecord_changes ..))
    | decide

/-- A use of an entry changes what its write changes, the TMC and, by the event, the classes and the application link. -/
theorem useEntry_changes {α : Type} (t : TableId) (i : Nat) (e : Checked α) {put : Checked α → State → State} (s : State)
    {q : Part} (hp : ∀ e s, changes [.part q] s (put e s)) : changes (.part q :: eventUse) s (useEntry t i e put s) := by
  have h : within [.part q] (.part q :: eventUse) = true := by simp [within]
  have k (l : List Piece) (hl : within l eventUse = true) : within l (.part q :: eventUse) = true := by
    simp only [within, List.all_eq_true] at hl ⊢
    intro p hp
    have := hl p hp
    simp only [List.contains_cons, this, Bool.or_true]
  unfold useEntry
  split
  · exact .refl ..
  · split
    · exact .refl ..
    · exact ((hp ..).mono h).trans ((tmcCorrect_changes ..).mono (k [.part .tmc] (by decide)))
    · exact ((hp ..).mono h).trans ((tmcFail_changes ..).mono (k eventUse (by decide)))

theorem pump_changes (s : State) : changes [.part .alc] s (pump s) := by
  unfold pump
  repeat' first
    | (with_reducible apply changes.refl)
    | (with_reducible assumption)
    | split
    | (with_reducible apply changes.modAlc)
    | decide
    | exact .inl (by decide)
    | exact .inr (fun _ => ⟨rfl, rfl⟩)

theorem addResponse_changes (r : Response) (s : State) : changes [.part .alc] s (addResponse r s) := by
  unfold addResponse
  repeat' first
    | (with_reducible apply changes.refl)
    | (with_reducible assumption)
    | (with_reducible apply changes.modAlc)
    | (with_reducible apply changes.step (cntAlc_changes ..))
    | (with_reducible apply changes.ite <;> intro _)
    | decide
    | exact .inl (by decide)
    | exact .inr (fun _ => ⟨rfl, rfl⟩)

theorem answer_changes (q : Request) (tag : Nat) (st : Status) (p : Payload) (s : State) :
    changes [.part .alc] s (answer q tag st p s) := by
  unfold answer
  repeat' first
    | (with_reducible apply changes.refl)
    | (with_reducible assumption)
    | (with_reducible apply changes.step (cntAlc_changes ..))
    | (with_reducible apply changes.step (addResponse_changes ..))
    | (with_reducible apply changes.ite <;> intro _)
    | decide

theorem loseForward_changes (f : Forward) (s : State) : changes (eventUse ++ [.part .brt]) s (loseForward f s) := by
  unfold loseForward
  try dsimp only
  repeat' first
    | (with_reducible apply changes.refl)
    | (with_reducible assumption)
    | (with_reducible apply changes.step (modBrt_changes ..))
    | (with_reducible apply changes.step (cntBrt_changes ..))
    | (with_reducible apply changes.step (post_changes ..))
    | (with_reducible apply changes.ite <;> intro _)
    | decide

theorem forward_changes (f : Forward) (s : State) : changes (eventUse ++ [.part .brt]) s (forward f s) := by
  unfold forward
  repeat' first
    | (with_reducible apply changes.refl)
    | (with_reducible assumption)
    | (with_reducible apply changes.modAlc)
    | (with_reducible apply changes.step (cntAlc_changes ..))
    | (with_reducible apply changes.step (loseForward_changes ..))
    | (with_reducible apply changes.ite <;> intro _)
    | decide
    | exact .inl (by decide)
    | exact .inr (fun _ => ⟨rfl, rfl⟩)

theorem setBearer_changes (i : Nat) (e : Checked Bearer) (s : State) :
    changes [.part .bearer] s (setBearer i e s) := by
  unfold setBearer
  repeat' first
    | (with_reducible apply changes.refl)
    | (with_reducible assumption)
    | (with_reducible apply changes.modTab)
    | exact .inl (by decide)
    | exact .inr (fun _ => rfl)

theorem setIdentity_changes (i : Nat) (e : Checked IdentityEntry) (s : State) :
    changes [.part .identity] s (setIdentity i e s) := by
  unfold setIdentity
  repeat' first
    | (with_reducible apply changes.refl)
    | (with_reducible assumption)
    | (with_reducible apply changes.modTab)
    | exact .inl (by decide)
    | exact .inr (fun _ => rfl)

theorem setScreen_changes (i : Nat) (e : Checked (BitVec 16)) (s : State) :
    changes [.part .screen] s (setScreen i e s) := by
  unfold setScreen
  repeat' first
    | (with_reducible apply changes.refl)
    | (with_reducible assumption)
    | (with_reducible apply changes.modTab)
    | exact .inl (by decide)
    | exact .inr (fun _ => rfl)

theorem setParam_changes (b : Sub) (e : Checked Param) (s : State) : changes [.part .param] s (setParam b e s) := by
  unfold setParam
  repeat' first
    | (with_reducible apply changes.refl)
    | (with_reducible assumption)
    | (with_reducible apply changes.modTab)
    | exact .inl (by decide)
    | exact .inr (fun _ => rfl)

theorem restartOcc_changes (s : State) : changes [.part .vpb] s (restartOcc s) := by
  unfold restartOcc
  repeat' first
    | (with_reducible apply changes.refl)
    | (with_reducible assumption)
    | (with_reducible apply changes.modVpb)
    | decide
    | exact .inl (by decide)
    | exact .inr (fun _ => rfl)

theorem checkGlobal_changes (s : State) : changes (eventUse ++ [.part .global, .part .vpb]) s (checkGlobal s) := by
  unfold checkGlobal
  try dsimp only
  repeat' first
    | (with_reducible apply changes.refl)
    | (with_reducible assumption)
    | split
    | (with_reducible apply changes.modTab)
    | (with_reducible apply changes.step (tmcCorrect_changes ..))
    | (with_reducible apply changes.step (tmcFail_changes ..))
    | (with_reducible apply changes.step (restartOcc_changes ..))
    | decide
    | exact .inl (by decide)
    | exact .inr (fun _ => rfl)

theorem drawCurrent_changes (s : State) :
    changes (eventUse ++ [.part .ftb, .part .global, .part .vpb, .acc]) s (drawCurrent s) := by
  unfold drawCurrent
  try dsimp only
  repeat' first
    | (with_reducible apply changes.refl)
    | (with_reducible assumption)
    | (with_reducible apply changes.modFtb)
    | (with_reducible apply changes.step (checkGlobal_changes ..))
    | decide
    | exact .inl (by decide)
    | exact .inr (fun _ => rfl)

theorem powerOn_changes (s : State) : changes [.part .ftb, .part .fl] s (powerOn s) := by
  unfold powerOn
  repeat' first
    | (with_reducible apply changes.refl)
    | (with_reducible assumption)
    | (with_reducible apply changes.modFtb)
    | (with_reducible apply changes.step (sendFl_changes ..))
    | decide
    | exact .inl (by decide)
    | exact .inr (fun _ => rfl)

theorem setWakeInstant_changes (s : State) : changes [.part .ftb, .part .fl] s (setWakeInstant s) := by
  unfold setWakeInstant
  repeat' first
    | (with_reducible apply changes.refl)
    | (with_reducible assumption)
    | split
    | (with_reducible apply changes.modFtb)
    | (with_reducible apply changes.step (powerOn_changes ..))
    | decide
    | exact .inl (by decide)
    | exact .inr (fun _ => rfl)

theorem refreshWake_changes (s : State) : changes globalUse s (refreshWake s) := by
  unfold refreshWake
  repeat' first
    | (with_reducible apply changes.refl)
    | (with_reducible assumption)
    | (with_reducible apply changes.step (setWakeInstant_changes ..))
    | (with_reducible apply changes.step (checkGlobal_changes ..))
    | decide

theorem useGlobal_changes (s : State) : changes globalUse s (useGlobal s) := by
  unfold useGlobal
  try dsimp only
  repeat' first
    | (with_reducible apply changes.refl)
    | (with_reducible assumption)
    | (with_reducible apply changes.step (checkGlobal_changes ..))
    | (with_reducible apply changes.step (setWakeInstant_changes ..))
    | (with_reducible apply changes.ite <;> intro _)
    | decide

theorem powerOff_changes (s : State) : changes [.part .ftb, .part .fl] s (powerOff s) := by
  unfold powerOff
  repeat' first
    | (with_reducible apply changes.refl)
    | (with_reducible assumption)
    | (with_reducible apply changes.modFtb)
    | (with_reducible apply changes.step (sendFl_changes ..))
    | decide
    | exact .inl (by decide)
    | exact .inr (fun _ => rfl)

theorem powerDownOn_changes (s : State) : changes (globalUse ++ [.acc]) s (powerDownOn s) := by
  unfold powerDownOn
  try dsimp only
  repeat' first
    | (with_reducible apply changes.refl)
    | (with_reducible assumption)
    | split
    | (with_reducible apply changes.modFtb)
    | (with_reducible apply changes.step (powerOff_changes ..))
    | (with_reducible apply changes.step (drawCurrent_changes ..))
    | decide
    | exact .inl (by decide)
    | exact .inr (fun _ => rfl)

theorem powerDownTest_changes (s : State) : changes (globalUse ++ [.acc]) s (powerDownTest s) := by
  unfold powerDownTest
  try dsimp only
  repeat' first
    | (with_reducible apply changes.refl)
    | (with_reducible assumption)
    | split
    | (with_reducible apply changes.step (checkGlobal_changes ..))
    | (with_reducible apply changes.step (setWakeInstant_changes ..))
    | (with_reducible apply changes.step (powerDownOn_changes ..))
    | (with_reducible apply changes.step (powerOff_changes ..))
    | decide

end Sys2Proof.Machine
end

