-- ==== Sys2Proof/Laws/Claims.lean ====
section
/-! SUPPORT. What each operation of Machine/Claims.lean and Cells.lean can change at most. -/

namespace Sys2Proof.Machine

-- One lemma at a time: elaborated together they would each take a thread.
set_option Elab.async false

theorem syncWindow_changes (u : Sub) (s : State) : changes [.part .pgm] s (syncWindow u s) := by
  unfold syncWindow
  repeat' first
    | (with_reducible apply changes.refl)
    | (with_reducible assumption)
    | split
    | (with_reducible apply changes.step (modRec_changes ..))
    | decide

theorem setClaims_changes (l : List Claim) (s : State) : changes listUse s (setClaims l s) := by
  unfold setClaims
  repeat' first
    | (with_reducible apply changes.refl)
    | (with_reducible assumption)
    | (with_reducible apply changes.modRta)
    | (with_reducible apply changes.step (refreshWake_changes ..))
    | (with_reducible apply changes.step (syncWindow_changes ..))
    | decide
    | exact .inl (by decide)
    | exact .inr (fun _ => rfl)

theorem removeClaims_changes (p : Claim → Bool) (s : State) : changes listUse s (removeClaims p s) := by
  unfold removeClaims
  repeat' first
    | (with_reducible apply changes.refl)
    | (with_reducible assumption)
    | (with_reducible apply changes.step (setClaims_changes ..))
    | (with_reducible apply changes.ite <;> intro _)
    | decide

theorem placeClaim_changes (c : Claim) (s : State) : changes listUse s (placeClaim c s) := by
  unfold placeClaim
  try dsimp only
  repeat' first
    | (with_reducible apply changes.refl)
    | (with_reducible assumption)
    | (with_reducible apply changes.modRta)
    | (with_reducible apply changes.step (setClaims_changes ..))
    | decide
    | exact .inl (by decide)
    | exact .inr (fun _ => rfl)

theorem mapClaims_changes (p : Claim → Bool) (f : Claim → Claim) (s : State) :
    changes [.part .rta] s (mapClaims p f s) := by
  unfold mapClaims
  repeat' first
    | (with_reducible apply changes.refl)
    | (with_reducible assumption)
    | (with_reducible apply changes.modRta)
    | decide
    | exact .inl (by decide)
    | exact .inr (fun _ => rfl)

theorem countRefusedItems_changes (k : Nat) (s : State) : changes [.part .rta] s (countRefusedItems k s) := by
  unfold countRefusedItems
  repeat' first
    | (with_reducible apply changes.refl)
    | (with_reducible assumption)
    | (with_reducible apply changes.step (cntRta_changes ..))
    | (with_reducible apply changes.ite <;> intro _)
    | decide

theorem appendItems_changes (p : Claim → Bool) (l : List ReplyItem) (s : State) :
    changes [.part .rta] s (appendItems p l s) := by
  unfold appendItems
  try dsimp only
  repeat' first
    | (with_reducible apply changes.refl)
    | (with_reducible assumption)
    | split
    | (with_reducible apply changes.step (countRefusedItems_changes ..))
    | (with_reducible apply changes.step (mapClaims_changes ..))
    | decide

theorem withdrawStoreReady_changes (u : Sub) (s : State) : changes [.part .rta] s (withdrawStoreReady u s) := by
  unfold withdrawStoreReady
  repeat' first
    | (with_reducible apply changes.refl)
    | (with_reducible assumption)
    | (with_reducible apply changes.step (mapClaims_changes ..))
    | decide

theorem setNotice_changes (u : Sub) (n : Notice) (s : State) :
    changes [.part .rta, .part .subA, .part .subB] s (setNotice u n s) := by
  unfold setNotice
  try dsimp only
  repeat' first
    | (with_reducible apply changes.refl)
    | (with_reducible assumption)
    | (with_reducible apply changes.modSub)
    | (with_reducible apply changes.step (withdrawStoreReady_changes ..))
    | (with_reducible apply changes.ite <;> intro _)
    | decide
    | exact .inl (by decide)
    | exact .inr (fun _ => rfl)

theorem moveWatch_changes (u : Sub) (s : State) : changes listUse s (moveWatch u s) := by
  unfold moveWatch
  repeat' first
    | (with_reducible apply changes.refl)
    | (with_reducible assumption)
    | split
    | (with_reducible apply changes.step (placeClaim_changes ..))
    | (with_reducible apply changes.step (removeClaims_changes ..))
    | decide

theorem recomputeCycle_changes (u : Sub) (s : State) :
    changes (listUse ++ [.part .subA, .part .subB]) s (recomputeCycle u s) := by
  unfold recomputeCycle
  try dsimp only
  repeat' first
    | (with_reducible apply changes.refl)
    | (with_reducible assumption)
    | split
    | (with_reducible apply changes.modSub)
    | (with_reducible apply changes.step (moveWatch_changes ..))
    | decide
    | exact .inl (by decide)
    | exact .inr (fun _ => rfl)

theorem zeroTriggerList_changes (u : Sub) (s : State) : changes [.part .hxu] s (zeroTriggerList u s) := by
  refine changes.modHxu (by decide) (.inr (fun x => ?_)) (.refl ..)
  cases x.run with
  | none => rfl
  | some r =>
    simp only [Option.map_some]
    split <;> rfl

theorem readParam_changes (u : Sub) (s : State) : changes (eventUse ++ [.part .param]) s (readParam u s) := by
  unfold readParam
  try dsimp only
  repeat' first
    | (with_reducible apply changes.refl)
    | (with_reducible assumption)
    | split
    | (with_reducible apply changes.step (useEntry_changes (hp := setParam_changes _) ..))
    | (with_reducible apply changes.step (setParam_changes ..))
    | decide

theorem readIdentity_changes (i : Nat) (s : State) :
    changes (eventUse ++ [.part .identity]) s (readIdentity i s) := by
  unfold readIdentity
  try dsimp only
  repeat' first
    | (with_reducible apply changes.refl)
    | (with_reducible assumption)
    | split
    | (with_reducible apply changes.step (useEntry_changes (hp := setIdentity_changes _) ..))
    | (with_reducible apply changes.step (setIdentity_changes ..))
    | decide

theorem readForKey_changes (l : List Nat) (s : State) : changes (eventUse ++ [.part .identity]) s (readForKey l s) := by
  induction l generalizing s with
  | nil => exact .refl ..
  | cons i l ih =>
    unfold readForKey
    dsimp only
    split
    · exact readIdentity_changes ..
    · exact (readIdentity_changes ..).trans (ih _)

theorem rekey_changes (u : Sub) (s : State) :
    changes (listUse ++ [.part .subA, .part .subB, .part .identity]) s (rekey u s) := by
  unfold rekey
  try dsimp only
  repeat' first
    | (with_reducible apply changes.refl)
    | (with_reducible assumption)
    | (with_reducible apply changes.modSub)
    | (with_reducible apply changes.step (moveWatch_changes ..))
    | (with_reducible apply changes.ite <;> intro _)
    | (with_reducible apply changes.step (readForKey_changes ..))
    | decide
    | exact .inl (by decide)
    | exact .inr (fun _ => rfl)

theorem checkIdentity_changes (i : Nat) (s : State) :
    changes (listUse ++ [.part .subA, .part .subB, .part .identity]) s (checkIdentity i s) := by
  unfold checkIdentity
  try dsimp only
  repeat' first
    | (with_reducible apply changes.refl)
    | (with_reducible assumption)
    | split
    | (with_reducible apply changes.step (rekey_changes ..))
    | (with_reducible apply changes.step (readIdentity_changes ..))
    | decide

theorem checkScreen_changes (i : Nat) (s : State) : changes (eventUse ++ [.part .screen]) s (checkScreen i s) := by
  unfold checkScreen
  try dsimp only
  repeat' first
    | (with_reducible apply changes.refl)
    | (with_reducible assumption)
    | split
    | (with_reducible apply changes.step (setScreen_changes ..))
    | (with_reducible apply changes.step (useEntry_changes (hp := setScreen_changes _) ..))
    | decide

theorem setCell_changes (i : Nat) (c : Cell) (s : State) : changes [.part .ctb] s (setCell i c s) := by
  unfold setCell
  repeat' first
    | (with_reducible apply changes.refl)
    | (with_reducible assumption)
    | (with_reducible apply changes.modCtb)
    | decide
    | exact .inl (by decide)
    | exact .inr (fun _ => rfl)

theorem modCell_changes (i : Nat) (f : Cell → Cell) (s : State) : changes [.part .ctb] s (modCell i f s) := by
  unfold modCell
  repeat' first
    | (with_reducible apply changes.refl)
    | (with_reducible assumption)
    | (with_reducible apply changes.step (setCell_changes ..))
    | decide

theorem settleParams_changes {f : Sub → State → State} (hf : ∀ u s, changes paramUse s (f u s)) (old : State) (s : State) :
    changes paramUse s (settleParams f old s) := by
  unfold settleParams
  dsimp only
  repeat' first
    | (with_reducible apply changes.refl)
    | (with_reducible assumption)
    | split
    | (with_reducible apply changes.step (hf ..))
    | decide

theorem readServed_changes (u : Sub) (c : Cell) (s : State) :
    changes (eventUse ++ [.part .param]) s (readServed u c s) := by
  unfold readServed
  try dsimp only
  repeat' first
    | (with_reducible apply changes.refl)
    | (with_reducible assumption)
    | split
    | (with_reducible apply changes.step (readParam_changes ..))
    | decide

theorem rebuild_changes {f : Sub → State → State} (hf : ∀ u s, changes paramUse s (f u s)) (i : Nat) (c : Cell) (s : State) :
    changes paramUse s (rebuild f i c s) := by
  unfold rebuild
  dsimp only
  repeat' first
    | (with_reducible apply changes.refl)
    | (with_reducible assumption)
    | split
    | (with_reducible apply changes.step (settleParams_changes hf ..))
    | (with_reducible apply changes.step (cntCtb_changes ..))
    | (with_reducible apply changes.step (setCell_changes ..))
    | (with_reducible apply changes.step (readServed_changes ..))
    | decide

theorem cellFail_changes {f : Sub → State → State} (hf : ∀ u s, changes paramUse s (f u s)) (i : Nat) (s : State) :
    changes paramUse s (cellFail f i s) := by
  unfold cellFail
  dsimp only
  repeat' first
    | (with_reducible apply changes.refl)
    | (with_reducible assumption)
    | split
    | (with_reducible apply changes.modHxu)
    | (with_reducible apply changes.step (rebuild_changes hf ..))
    | (with_reducible apply changes.step (setCell_changes ..))
    | (with_reducible apply changes.step (tmcFail_changes ..))
    | decide
    | exact .inl (by decide)
    | exact .inr (fun _ => rfl)

theorem useCellWith_changes {f : Sub → State → State} (hf : ∀ u s, changes paramUse s (f u s)) (i : Nat) (s : State) :
    changes paramUse s (useCellWith f i s) := by
  unfold useCellWith
  dsimp only
  repeat' first
    | (with_reducible apply changes.refl)
    | (with_reducible assumption)
    | split
    | (with_reducible apply changes.step (tmcCorrect_changes ..))
    | (with_reducible apply changes.step (setCell_changes ..))
    | (with_reducible apply changes.step (cellFail_changes hf ..))
    | decide

theorem zeroTriggersWith_changes {f : Sub → State → State} (hf : ∀ u s, changes paramUse s (f u s)) (u : Sub) (s : State) :
    changes paramUse s (zeroTriggersWith f u s) := by
  unfold zeroTriggersWith
  refine changes.foldl (fun t i h => ?_) (.refl ..)
  dsimp only
  repeat' first
    | (with_reducible apply changes.refl)
    | (with_reducible assumption)
    | split
    | (with_reducible apply changes.step (useCellWith_changes hf ..))
    | (with_reducible apply changes.step (modCell_changes ..))
    | decide

theorem paramChangedWith_changes {f : Sub → State → State} (hf : ∀ u s, changes paramUse s (f u s)) (u : Sub) (s : State) :
    changes paramUse s (paramChangedWith f u s) := by
  unfold paramChangedWith
  refine changes.modSub (by decide) (.inr (fun _ => rfl)) ?_
  exact changes.step (recomputeCycle_changes ..) (by decide) (changes.step (zeroTriggerList_changes ..) (by decide)
    (zeroTriggersWith_changes hf ..))

theorem paramChanged_changes (u : Sub) (s : State) : changes paramUse s (paramChanged u s) :=
  paramChangedWith_changes (paramChangedWith_changes fun _ _ => .refl ..) ..

theorem useCell_changes (i : Nat) (s : State) : changes paramUse s (useCell i s) :=
  useCellWith_changes paramChanged_changes ..

theorem zeroTriggers_changes (u : Sub) (s : State) : changes paramUse s (zeroTriggers u s) :=
  zeroTriggersWith_changes paramChanged_changes ..

theorem checkParam_changes (u : Sub) (s : State) : changes paramUse s (checkParam u s) := by
  unfold checkParam
  try dsimp only
  repeat' first
    | (with_reducible apply changes.refl)
    | (with_reducible assumption)
    | split
    | (with_reducible apply changes.step (paramChanged_changes ..))
    | (with_reducible apply changes.step (readParam_changes ..))
    | decide

theorem touchEntry_changes (i : Nat) (s : State) : changes [.part .ctb] s (touchEntry i s) := by
  unfold touchEntry
  repeat' first
    | (with_reducible apply changes.refl)
    | (with_reducible assumption)
    | (with_reducible apply changes.modCtb)
    | decide
    | exact .inl (by decide)
    | exact .inr (fun _ => rfl)

theorem lookup_changes (k : Key) (touch : Bool) (s : State) : changes paramUse s (lookup k touch s).1 := by
  unfold lookup
  try dsimp only
  repeat' first
    | (with_reducible apply changes.refl)
    | (with_reducible assumption)
    | split
    | (dsimp only)
    | (with_reducible apply changes.foldl)
    | (with_reducible apply changes.step (useCell_changes ..))
    | (with_reducible apply changes.step (touchEntry_changes ..))
    | (with_reducible apply changes.foldl_fst)
    | (intro _ _ _)
    | decide

theorem walkWays_changes (base : Nat) (l : List Nat) (s : State) : changes paramUse s (walkWays base l s).1 := by
  induction l generalizing s with
  | nil => exact changes.refl _ _
  | cons w l ih =>
    unfold walkWays
    dsimp only
    split
    · exact (useCell_changes ..).mono (by decide)
    · split
      · exact (useCell_changes ..).mono (by decide)
      · exact ((useCell_changes ..).mono (by decide)).trans (ih _)

theorem takeWay_changes (k : Key) (i : Nat) (discards : Bool) (s : State) :
    changes [.part .ctb] s (takeWay k i discards s) := by
  unfold takeWay
  try dsimp only
  repeat' first
    | (with_reducible apply changes.refl)
    | (with_reducible assumption)
    | (with_reducible apply changes.step (cntCtb_changes ..))
    | (with_reducible apply changes.step (touchEntry_changes ..))
    | (with_reducible apply changes.step (setCell_changes ..))
    | decide

theorem allocate_changes (k : Key) (s : State) : changes paramUse s (allocate k s).1 := by
  unfold allocate
  repeat' first
    | (with_reducible apply changes.refl)
    | (with_reducible assumption)
    | split
    | (dsimp only)
    | (with_reducible apply changes.step (cntCtb_changes ..))
    | (with_reducible apply changes.step (takeWay_changes ..))
    | (with_reducible apply changes.step (walkWays_changes ..))
    | (with_reducible apply changes.of_fst; (focus assumption))
    | decide

theorem lookupOrAllocate_changes (k : Key) (s : State) : changes paramUse s (lookupOrAllocate k s).1 := by
  unfold lookupOrAllocate
  repeat' first
    | (with_reducible apply changes.refl)
    | (with_reducible assumption)
    | split
    | (dsimp only)
    | (with_reducible apply changes.step (lookup_changes ..))
    | (with_reducible apply changes.step (allocate_changes ..))
    | (with_reducible apply changes.of_fst; (focus assumption))
    | decide

theorem releaseTest_changes (i : Nat) (s : State) : changes [.part .ctb] s (releaseTest i s) := by
  unfold releaseTest
  try dsimp only
  repeat' first
    | (with_reducible apply changes.refl)
    | (with_reducible assumption)
    | (with_reducible apply changes.step (cntCtb_changes ..))
    | (with_reducible apply changes.step (modCell_changes ..))
    | (with_reducible apply changes.step (setCell_changes ..))
    | (with_reducible apply changes.ite <;> intro _)
    | decide

theorem unpinServing_changes (u : Sub) (i : Nat) (s : State) : changes paramUse s (unpinServing u i s) := by
  unfold unpinServing
  try dsimp only
  repeat' first
    | (with_reducible apply changes.refl)
    | (with_reducible assumption)
    | (with_reducible apply changes.step (useCell_changes ..))
    | (with_reducible apply changes.step (modCell_changes ..))
    | (with_reducible apply changes.step (releaseTest_changes ..))
    | decide

theorem releaseServing_changes (u : Sub) (s : State) : changes paramUse s (releaseServing u s) := by
  unfold releaseServing
  repeat' first
    | (with_reducible apply changes.refl)
    | (with_reducible assumption)
    | split
    | (with_reducible apply changes.step (unpinServing_changes ..))
    | decide

theorem pinServing_changes (u : Sub) (i : Nat) (staleLimit : Nat) (s : State) :
    changes paramUse s (pinServing u i staleLimit s) := by
  unfold pinServing
  repeat' first
    | (with_reducible apply changes.refl)
    | (with_reducible assumption)
    | split
    | (with_reducible apply changes.step (unpinServing_changes ..))
    | (with_reducible apply changes.step (modCell_changes ..))
    | decide

theorem releaseTarget_changes (s : State) : changes paramUse s (releaseTarget s) := by
  unfold releaseTarget
  repeat' first
    | (with_reducible apply changes.refl)
    | (with_reducible assumption)
    | split
    | (with_reducible apply changes.step (releaseTest_changes ..))
    | (with_reducible apply changes.step (modCell_changes ..))
    | (with_reducible apply changes.step (useCell_changes ..))
    | decide

theorem setFrozen_changes (b : Bool) (s : State) : changes [.part .ctb, .frozen] s (setFrozen b s) := by
  unfold setFrozen
  repeat' first
    | (with_reducible apply changes.refl)
    | (with_reducible assumption)
    | (with_reducible apply changes.modCtb)
    | decide
    | exact .inl (by decide)

theorem givePenalty_changes (u : Sub) (k : Key) (penalty : Nat) (s : State) :
    changes paramUse s (givePenalty u k penalty s) := by
  unfold givePenalty
  repeat' first
    | (with_reducible apply changes.refl)
    | (with_reducible assumption)
    | split
    | (with_reducible apply changes.step (lookup_changes ..))
    | (with_reducible apply changes.step (modCell_changes ..))
    | (dsimp only)
    | (with_reducible apply changes.of_fst; (focus assumption))
    | decide

theorem writeBarred_changes (k : Key) (barred : Bool) (s : State) :
    changes paramUse s (writeBarred k barred s).1 := by
  unfold writeBarred
  repeat' first
    | (with_reducible apply changes.refl)
    | (with_reducible assumption)
    | split
    | (dsimp only)
    | (with_reducible apply changes.step (lookup_changes ..))
    | (with_reducible apply changes.step (modCell_changes ..))
    | (with_reducible apply changes.of_fst; (focus assumption))
    | decide

theorem detachCells_changes (u : Sub) (s : State) : changes paramUse s (detachCells u s) := by
  unfold detachCells
  try dsimp only
  repeat' first
    | (with_reducible apply changes.refl)
    | (with_reducible assumption)
    | (with_reducible apply changes.foldl)
    | (with_reducible apply changes.step (useCell_changes ..))
    | (with_reducible apply changes.step (modCell_changes ..))
    | (with_reducible apply changes.step (releaseTest_changes ..))
    | (with_reducible apply changes.ite <;> intro _)
    | (dsimp only)
    | (with_reducible apply changes.foldl_fst)
    | (intro _ _ _)
    | decide

end Sys2Proof.Machine
end

