-- ==== Sys2Proof/Laws/Bearers.lean ====
section
/-! SUPPORT. What each operation of Machine/Voice.lean and Bearers.lean can change at most. -/

namespace Sys2Proof.Machine

-- One lemma at a time: elaborated together they would each take a thread.
set_option Elab.async false

theorem modPlay_changes (f : Playout → Playout) (s : State) : changes [.part .vpb] s (modPlay f s) := by
  unfold modPlay
  repeat' first
    | (with_reducible apply changes.refl)
    | (with_reducible assumption)
    | (with_reducible apply changes.modVpb)
    | decide
    | exact .inl (by decide)
    | exact .inr (fun _ => rfl)

theorem countUpDiscarded_changes (s : State) : changes [.part .vpb] s (countUpDiscarded s) := by
  unfold countUpDiscarded
  repeat' first
    | (with_reducible apply changes.refl)
    | (with_reducible assumption)
    | (with_reducible apply changes.step (cntVpb_changes ..))
    | decide

theorem activatePlayout_changes (bearer : Nat) (owner : Sub) (s : State) :
    changes globalUse s (activatePlayout bearer owner s) := by
  unfold activatePlayout
  try dsimp only
  repeat' first
    | (with_reducible apply changes.refl)
    | (with_reducible assumption)
    | split
    | (with_reducible apply changes.modVpb)
    | (with_reducible apply changes.step (useGlobal_changes ..))
    | (with_reducible apply changes.step (restartOcc_changes ..))
    | decide
    | exact .inl (by decide)
    | exact .inr (fun _ => rfl)

theorem endPlayout_changes (s : State) : changes [.part .vpb] s (endPlayout s) := by
  unfold endPlayout
  repeat' first
    | (with_reducible apply changes.refl)
    | (with_reducible assumption)
    | split
    | (with_reducible apply changes.modVpb)
    | (with_reducible apply changes.step (cntVpb_changes ..))
    | decide
    | exact .inl (by decide)
    | exact .inr (fun _ => rfl)

theorem endIfSilent_changes (s : State) : changes [.part .vpb] s (endIfSilent s) := by
  unfold endIfSilent
  repeat' first
    | (with_reducible apply changes.refl)
    | (with_reducible assumption)
    | (with_reducible apply changes.step (endPlayout_changes ..))
    | (with_reducible apply changes.ite <;> intro _)
    | decide

theorem examineFrame_changes (f : VoiceFrame) (next : Nat) (p : Playout) (s : State) :
    changes [.part .vpb] s (examineFrame f next p s) := by
  unfold examineFrame
  try dsimp only
  repeat' first
    | (with_reducible apply changes.refl)
    | (with_reducible assumption)
    | split
    | (with_reducible apply changes.step (cntVpb_changes ..))
    | (with_reducible apply changes.step (modPlay_changes ..))
    | decide

theorem offerFrame_changes (f : VoiceFrame) (s : State) : changes [.part .vpb] s (offerFrame f s) := by
  unfold offerFrame
  repeat' first
    | (with_reducible apply changes.refl)
    | (with_reducible assumption)
    | split
    | (with_reducible apply changes.step (modPlay_changes ..))
    | (with_reducible apply changes.step (examineFrame_changes ..))
    | decide

theorem sampleOcc_changes (n : Nat) (s : State) : changes globalUse s (sampleOcc n s) := by
  unfold sampleOcc
  try dsimp only
  repeat' first
    | (with_reducible apply changes.refl)
    | (with_reducible assumption)
    | split
    | (with_reducible apply changes.modVpb)
    | (with_reducible apply changes.step (useGlobal_changes ..))
    | decide
    | exact .inl (by decide)
    | exact .inr (fun _ => rfl)

theorem playNext_changes (next : Nat) (p : Playout) (s : State) :
    changes [.part .vpb, .part .codec] s (playNext next p s) := by
  unfold playNext
  repeat' first
    | (with_reducible apply changes.refl)
    | (with_reducible assumption)
    | split
    | (with_reducible apply changes.step (cntVpb_changes ..))
    | (with_reducible apply changes.step (sendCodec_changes ..))
    | (with_reducible apply changes.step (modPlay_changes ..))
    | decide

theorem pull_changes (s : State) : changes (globalUse ++ [.part .codec]) s (pull s) := by
  unfold pull
  try dsimp only
  repeat' first
    | (with_reducible apply changes.refl)
    | (with_reducible assumption)
    | split
    | (with_reducible apply changes.step (sendCodec_changes ..))
    | (with_reducible apply changes.step (sampleOcc_changes ..))
    | (with_reducible apply changes.step (playNext_changes ..))
    | decide

theorem setPendingUp_changes (f : VoiceFrame) (s : State) : changes [.part .vpb] s (setPendingUp f s) := by
  unfold setPendingUp
  try dsimp only
  repeat' first
    | (with_reducible apply changes.refl)
    | (with_reducible assumption)
    | (with_reducible apply changes.modVpb)
    | (with_reducible apply changes.step (countUpDiscarded_changes ..))
    | (with_reducible apply changes.ite <;> intro _)
    | decide
    | exact .inl (by decide)
    | exact .inr (fun _ => rfl)

theorem takeUpSeq_changes (s : State) : changes [.part .vpb] s (takeUpSeq s) := by
  unfold takeUpSeq
  repeat' first
    | (with_reducible apply changes.refl)
    | (with_reducible assumption)
    | (with_reducible apply changes.step (modPlay_changes ..))
    | decide

theorem takeCodecFrame_changes (payload : Octets) (s : State) :
    changes [.part .vpb] s (takeCodecFrame payload s) := by
  unfold takeCodecFrame
  try dsimp only
  repeat' first
    | (with_reducible apply changes.refl)
    | (with_reducible assumption)
    | split
    | (with_reducible apply changes.step (setPendingUp_changes ..))
    | (with_reducible apply changes.step (takeUpSeq_changes ..))
    | (with_reducible apply changes.step (offerFrame_changes ..))
    | decide

theorem takeDownlinkVoice_changes (f : VoiceFrame) (s : State) : changes [.part .vpb] s (takeDownlinkVoice f s) := by
  unfold takeDownlinkVoice
  repeat' first
    | (with_reducible apply changes.refl)
    | (with_reducible assumption)
    | split
    | (with_reducible apply changes.step (cntVpb_changes ..))
    | (with_reducible apply changes.step (offerFrame_changes ..))
    | (with_reducible apply changes.step (setPendingUp_changes ..))
    | decide

theorem postLoop_changes (u : Option Sub) (which : Nat) (closed : Bool) (s : State) :
    changes eventUse s (postLoop u which closed s) := by
  unfold postLoop
  repeat' first
    | (with_reducible apply changes.refl)
    | (with_reducible assumption)
    | (with_reducible apply changes.step (post_changes ..))
    | decide

theorem openRadioLoop_changes (announce : Bool) (s : State) :
    changes (eventUse ++ [.part .vpb, .radioLoop]) s (openRadioLoop announce s) := by
  unfold openRadioLoop
  try dsimp only
  repeat' first
    | (with_reducible apply changes.refl)
    | (with_reducible assumption)
    | split
    | (with_reducible apply changes.modVpb)
    | (with_reducible apply changes.step (postLoop_changes ..))
    | decide
    | exact .inl (by decide)

theorem openLoopOf_changes (u : Sub) (announce : Bool) (s : State) :
    changes (eventUse ++ [.part .vpb, .radioLoop]) s (openLoopOf u announce s) := by
  unfold openLoopOf
  repeat' first
    | (with_reducible apply changes.refl)
    | (with_reducible assumption)
    | (with_reducible apply changes.step (openRadioLoop_changes ..))
    | (with_reducible apply changes.ite <;> intro _)
    | decide

theorem closeRadioLoop_changes (u : Sub) (s : State) :
    changes (eventUse ++ [.part .vpb, .radioLoop]) s (closeRadioLoop u s) := by
  unfold closeRadioLoop
  repeat' first
    | (with_reducible apply changes.refl)
    | (with_reducible assumption)
    | split
    | (with_reducible apply changes.modVpb)
    | (with_reducible apply changes.step (postLoop_changes ..))
    | decide
    | exact .inl (by decide)

theorem setCodecLoop_changes (closed : Bool) (s : State) :
    changes (eventUse ++ [.part .vpb]) s (setCodecLoop closed s) := by
  unfold setCodecLoop
  repeat' first
    | (with_reducible apply changes.refl)
    | (with_reducible assumption)
    | (with_reducible apply changes.modVpb)
    | (with_reducible apply changes.step (postLoop_changes ..))
    | (with_reducible apply changes.ite <;> intro _)
    | decide
    | exact .inl (by decide)
    | exact .inr (fun _ => rfl)

theorem checkBearer_changes (i : Nat) (s : State) :
    changes (eventUse ++ [.part .bearer, .part .vpb]) s (checkBearer i s) := by
  unfold checkBearer
  try dsimp only
  repeat' first
    | (with_reducible apply changes.refl)
    | (with_reducible assumption)
    | split
    | (with_reducible apply changes.step (setBearer_changes ..))
    | (with_reducible apply changes.step (endIfSilent_changes ..))
    | (with_reducible apply changes.step (useEntry_changes (hp := setBearer_changes _) ..))
    | decide

theorem changeBearers_changes (u : Sub) (p : BearerState → Bool) (st : BearerState) (s : State) :
    changes (eventUse ++ [.part .bearer, .part .vpb]) s (changeBearers u p st s) := by
  unfold changeBearers
  try dsimp only
  repeat' first
    | (with_reducible apply changes.refl)
    | (with_reducible assumption)
    | (with_reducible apply changes.foldl)
    | (with_reducible apply changes.step (endIfSilent_changes ..))
    | (with_reducible apply changes.step (checkBearer_changes ..))
    | (with_reducible apply changes.step (setBearer_changes ..))
    | (with_reducible apply changes.ite <;> intro _)
    | (dsimp only)
    | (with_reducible apply changes.foldl_fst)
    | (intro _ _ _)
    | decide

theorem idleBearers_changes (u : Sub) (s : State) :
    changes (eventUse ++ [.part .bearer, .part .vpb]) s (idleBearers u s) := by
  unfold idleBearers
  repeat' first
    | (with_reducible apply changes.refl)
    | (with_reducible assumption)
    | (with_reducible apply changes.step (changeBearers_changes ..))
    | decide

theorem holdBearers_changes (u : Sub) (s : State) :
    changes (eventUse ++ [.part .bearer, .part .vpb]) s (holdBearers u s) := by
  unfold holdBearers
  repeat' first
    | (with_reducible apply changes.refl)
    | (with_reducible assumption)
    | (with_reducible apply changes.step (changeBearers_changes ..))
    | decide

theorem resumeBearers_changes (u : Sub) (s : State) :
    changes (eventUse ++ [.part .bearer, .part .vpb]) s (resumeBearers u s) := by
  unfold resumeBearers
  repeat' first
    | (with_reducible apply changes.refl)
    | (with_reducible assumption)
    | (with_reducible apply changes.step (changeBearers_changes ..))
    | decide

theorem screeningCheck_changes (u : Sub) (base span : Nat) (s : State) :
    changes (paramUse ++ [.part .screen]) s (screeningCheck u base span s).1 := by
  unfold screeningCheck
  try dsimp only
  repeat' first
    | (with_reducible apply changes.refl)
    | (with_reducible assumption)
    | (dsimp only)
    | (with_reducible apply changes.foldl)
    | (with_reducible apply changes.step (checkParam_changes ..))
    | (with_reducible apply changes.step (checkScreen_changes ..))
    | (with_reducible apply changes.foldl_fst)
    | (intro _ _ _)
    | decide

theorem setQueue_changes (u : Sub) (l : List UplinkFrame) (s : State) : changes [.part .brt] s (setQueue u l s) := by
  unfold setQueue
  repeat' first
    | (with_reducible apply changes.refl)
    | (with_reducible assumption)
    | (with_reducible apply changes.step (modBrt_changes ..))
    | decide

theorem joinQueue_changes (u : Sub) (f : UplinkFrame) (s : State) : changes [.part .brt] s (joinQueue u f s).1 := by
  unfold joinQueue
  repeat' first
    | (with_reducible apply changes.refl)
    | (with_reducible assumption)
    | (dsimp only)
    | (with_reducible apply changes.step (cntBrt_changes ..))
    | (with_reducible apply changes.step (setQueue_changes ..))
    | (with_reducible apply changes.ite_fst <;> intro _)
    | decide

theorem placeHead_changes (u : Sub) (f : UplinkFrame) (s : State) : changes [.part .brt] s (placeHead u f s) := by
  unfold placeHead
  try dsimp only
  repeat' first
    | (with_reducible apply changes.refl)
    | (with_reducible assumption)
    | (with_reducible apply changes.step (cntBrt_changes ..))
    | (with_reducible apply changes.step (setQueue_changes ..))
    | (with_reducible apply changes.ite <;> intro _)
    | decide

theorem flushQueue_changes (u : Sub) (s : State) : changes [.part .brt] s (flushQueue u s) := by
  unfold flushQueue
  repeat' first
    | (with_reducible apply changes.refl)
    | (with_reducible assumption)
    | (with_reducible apply changes.step (cntBrt_changes ..))
    | (with_reducible apply changes.step (setQueue_changes ..))
    | decide

theorem drainQueue_changes (u : Sub) (fn : Nat) (s : State) :
    changes [.part .brt, .part .fl] s (drainQueue u fn s) := by
  unfold drainQueue
  repeat' first
    | (with_reducible apply changes.refl)
    | (with_reducible assumption)
    | split
    | (with_reducible apply changes.step (cntBrt_changes ..))
    | (with_reducible apply changes.step (sendFl_changes ..))
    | (with_reducible apply changes.step (setQueue_changes ..))
    | decide

theorem upDiscard_changes (s : State) : changes [.part .brt] s (upDiscard s) := by
  unfold upDiscard
  repeat' first
    | (with_reducible apply changes.refl)
    | (with_reducible assumption)
    | (with_reducible apply changes.step (cntBrt_changes ..))
    | decide

theorem downDiscard_changes (s : State) : changes [.part .brt] s (downDiscard s) := by
  unfold downDiscard
  repeat' first
    | (with_reducible apply changes.refl)
    | (with_reducible assumption)
    | (with_reducible apply changes.step (cntBrt_changes ..))
    | decide

theorem offerStoreReady_changes (u : Sub) (s : State) :
    changes [.part .rta, .part .subA, .part .subB, .part .brt] s (offerStoreReady u s) := by
  unfold offerStoreReady
  repeat' first
    | (with_reducible apply changes.refl)
    | (with_reducible assumption)
    | split
    | (with_reducible apply changes.step (joinQueue_changes ..))
    | (with_reducible apply changes.step (setNotice_changes ..))
    | (dsimp only)
    | (with_reducible apply changes.of_fst; (focus assumption))
    | decide

end Sys2Proof.Machine
end

