-- ==== Sys2Proof/Laws/Paging.lean ====
section
/-! SUPPORT. What each operation of Machine/Paging.lean and Texts.lean can change at most. -/

namespace Sys2Proof.Machine

-- One lemma at a time: elaborated together they would each take a thread.
set_option Elab.async false

theorem reselectFail_changes (u : Sub) (cause : Nat) (s : State) : changes paramUse s (reselectFail u cause s) := by
  unfold reselectFail
  try dsimp only
  repeat' first
    | (with_reducible apply changes.refl)
    | (with_reducible assumption)
    | split
    | (with_reducible apply changes.modSub)
    | (with_reducible apply changes.step (cntPgm_changes ..))
    | (with_reducible apply changes.step (checkParam_changes ..))
    | (with_reducible apply changes.step (givePenalty_changes ..))
    | (with_reducible apply changes.step (post_changes ..))
    | decide
    | exact .inl (by decide)
    | exact .inr (fun _ => rfl)

theorem acquisitionSpent_changes (u : Sub) (s : State) : changes paramUse s (acquisitionSpent u s) := by
  unfold acquisitionSpent
  repeat' first
    | (with_reducible apply changes.refl)
    | (with_reducible assumption)
    | split
    | (with_reducible apply changes.modSub)
    | (with_reducible apply changes.step (reselectFail_changes ..))
    | decide
    | exact .inl (by decide)
    | exact .inr (fun _ => rfl)

theorem countWatchMissed_changes (u : Sub) (s : State) : changes [.part .rta] s (countWatchMissed u s) := by
  unfold countWatchMissed
  repeat' first
    | (with_reducible apply changes.refl)
    | (with_reducible assumption)
    | (with_reducible apply changes.step (cntRta_changes ..))
    | decide

theorem missedEffect_changes (c : Claim) (s : State) : changes paramUse s (missedEffect c s) := by
  unfold missedEffect
  try dsimp only
  repeat' first
    | (with_reducible apply changes.refl)
    | (with_reducible assumption)
    | split
    | (with_reducible apply changes.modSub)
    | (with_reducible apply changes.step (cntRta_changes ..))
    | (with_reducible apply changes.step (checkParam_changes ..))
    | (with_reducible apply changes.step (countWatchMissed_changes ..))
    | (with_reducible apply changes.step (acquisitionSpent_changes ..))
    | decide
    | exact .inl (by decide)
    | exact .inr (fun _ => rfl)

theorem deferRenewal_changes (c : Claim) (s : State) : changes [.part .pgm] s (deferRenewal c s) := by
  unfold deferRenewal
  repeat' first
    | (with_reducible apply changes.refl)
    | (with_reducible assumption)
    | split
    | (with_reducible apply changes.step (modPgm_changes ..))
    | (with_reducible apply changes.step (modRec_changes ..))
    | decide

theorem countDisplaced_changes (s : State) : changes [.part .rta] s (countDisplaced s) := by
  unfold countDisplaced
  repeat' first
    | (with_reducible apply changes.refl)
    | (with_reducible assumption)
    | (with_reducible apply changes.step (cntRta_changes ..))
    | decide

theorem mergeClaim_changes (c : Claim) (s : State) : changes listUse s (mergeClaim c s) := by
  unfold mergeClaim
  try dsimp only
  repeat' first
    | (with_reducible apply changes.refl)
    | (with_reducible assumption)
    | (with_reducible apply changes.step (mapClaims_changes ..))
    | (with_reducible apply changes.step (appendItems_changes ..))
    | (with_reducible apply changes.step (setClaims_changes ..))
    | decide

theorem displaceLowest_changes (c : Claim) (s : State) : changes paramUse s (displaceLowest c s) := by
  unfold displaceLowest
  try dsimp only
  repeat' first
    | (with_reducible apply changes.refl)
    | (with_reducible assumption)
    | (with_reducible apply changes.step (placeClaim_changes ..))
    | (with_reducible apply changes.step (removeClaims_changes ..))
    | (with_reducible apply changes.step (deferRenewal_changes ..))
    | (with_reducible apply changes.step (missedEffect_changes ..))
    | (with_reducible apply changes.step (countDisplaced_changes ..))
    | (with_reducible apply changes.ite <;> intro _)
    | decide

theorem checkPriorities_changes (s : State) : changes paramUse s (checkPriorities s) := by
  unfold checkPriorities
  try dsimp only
  repeat' first
    | (with_reducible apply changes.refl)
    | (with_reducible assumption)
    | split
    | (with_reducible apply changes.step (checkParam_changes ..))
    | decide

theorem displaceInsert_changes (c : Claim) (s : State) : changes paramUse s (displaceInsert c s) := by
  unfold displaceInsert
  try dsimp only
  repeat' first
    | (with_reducible apply changes.refl)
    | (with_reducible assumption)
    | (with_reducible apply changes.step (mergeClaim_changes ..))
    | (with_reducible apply changes.step (placeClaim_changes ..))
    | (with_reducible apply changes.step (displaceLowest_changes ..))
    | (with_reducible apply changes.ite <;> intro _)
    | (with_reducible apply changes.step (checkPriorities_changes ..))
    | decide

theorem insertClaim_changes (c : Claim) (s : State) : changes paramUse s (insertClaim c s) := by
  unfold insertClaim
  repeat' first
    | (with_reducible apply changes.refl)
    | (with_reducible assumption)
    | (with_reducible apply changes.step (cntRta_changes ..))
    | (with_reducible apply changes.step (deferRenewal_changes ..))
    | (with_reducible apply changes.step (missedEffect_changes ..))
    | (with_reducible apply changes.step (mergeClaim_changes ..))
    | (with_reducible apply changes.step (placeClaim_changes ..))
    | (with_reducible apply changes.step (displaceInsert_changes ..))
    | (with_reducible apply changes.ite <;> intro _)
    | decide

theorem insertWatch_changes (u : Sub) (s : State) : changes paramUse s (insertWatch u s) := by
  unfold insertWatch
  try dsimp only
  repeat' first
    | (with_reducible apply changes.refl)
    | (with_reducible assumption)
    | split
    | (with_reducible apply changes.step (modRec_changes ..))
    | (with_reducible apply changes.step (insertClaim_changes ..))
    | (with_reducible apply changes.step (checkPriorities_changes ..))
    | decide

theorem renewWatch_changes (u : Sub) (s : State) : changes paramUse s (renewWatch u s) := by
  unfold renewWatch
  repeat' first
    | (with_reducible apply changes.refl)
    | (with_reducible assumption)
    | (with_reducible apply changes.step (insertWatch_changes ..))
    | (with_reducible apply changes.ite <;> intro _)
    | decide

theorem insertGap_changes (u : Sub) (k : Nat) (s : State) : changes paramUse s (insertGap u k s) := by
  unfold insertGap
  repeat' first
    | (with_reducible apply changes.refl)
    | (with_reducible assumption)
    | (with_reducible apply changes.step (modRec_changes ..))
    | (with_reducible apply changes.step (insertClaim_changes ..))
    | decide

theorem insertPeriodGap_changes (u : Sub) (s : State) : changes paramUse s (insertPeriodGap u s) := by
  unfold insertPeriodGap
  try dsimp only
  repeat' first
    | (with_reducible apply changes.refl)
    | (with_reducible assumption)
    | (with_reducible apply changes.step (checkParam_changes ..))
    | (with_reducible apply changes.step (insertGap_changes ..))
    | decide

theorem startGap_changes (u : Sub) (s : State) : changes paramUse s (startGap u s) := by
  unfold startGap
  repeat' first
    | (with_reducible apply changes.refl)
    | (with_reducible assumption)
    | (with_reducible apply changes.step (insertPeriodGap_changes ..))
    | (with_reducible apply changes.ite <;> intro _)
    | decide

theorem startWeakGap_changes (u : Sub) (s : State) : changes paramUse s (startWeakGap u s) := by
  unfold startWeakGap
  repeat' first
    | (with_reducible apply changes.refl)
    | (with_reducible assumption)
    | (with_reducible apply changes.step (insertGap_changes ..))
    | (with_reducible apply changes.ite <;> intro _)
    | decide

theorem renewGap_changes (u : Sub) (s : State) : changes paramUse s (renewGap u s) := by
  unfold renewGap
  repeat' first
    | (with_reducible apply changes.refl)
    | (with_reducible assumption)
    | split
    | (with_reducible apply changes.step (startGap_changes ..))
    | (with_reducible apply changes.step (startWeakGap_changes ..))
    | decide

theorem setChain_changes (u : Sub) (c : Option Chain) (s : State) : changes [.part .pgm] s (setChain u c s) := by
  unfold setChain
  repeat' first
    | (with_reducible apply changes.refl)
    | (with_reducible assumption)
    | (with_reducible apply changes.step (modRec_changes ..))
    | decide

theorem startSearch_changes (u : Sub) (s : State) : changes paramUse s (startSearch u s) := by
  unfold startSearch
  try dsimp only
  repeat' first
    | (with_reducible apply changes.refl)
    | (with_reducible assumption)
    | split
    | (with_reducible apply changes.step (setChain_changes ..))
    | (with_reducible apply changes.step (removeClaims_changes ..))
    | (with_reducible apply changes.step (insertClaim_changes ..))
    | decide

theorem startSearchIfDue_changes (u : Sub) (s : State) : changes paramUse s (startSearchIfDue u s) := by
  unfold startSearchIfDue
  repeat' first
    | (with_reducible apply changes.refl)
    | (with_reducible assumption)
    | (with_reducible apply changes.step (startSearch_changes ..))
    | (with_reducible apply changes.ite <;> intro _)
    | decide

theorem renewSearch_changes (s : State) : changes paramUse s (renewSearch s) := by
  unfold renewSearch
  try dsimp only
  repeat' first
    | (with_reducible apply changes.refl)
    | (with_reducible assumption)
    | split
    | (with_reducible apply changes.step (modPgm_changes ..))
    | (with_reducible apply changes.step (insertClaim_changes ..))
    | (with_reducible apply changes.step (setChain_changes ..))
    | decide

theorem leaveSearch_changes (u : Sub) (s : State) : changes listUse s (leaveSearch u s) := by
  unfold leaveSearch
  try dsimp only
  repeat' first
    | (with_reducible apply changes.refl)
    | (with_reducible assumption)
    | (with_reducible apply changes.step (modPgm_changes ..))
    | (with_reducible apply changes.step (removeClaims_changes ..))
    | (with_reducible apply changes.step (setChain_changes ..))
    | (with_reducible apply changes.ite <;> intro _)
    | decide

theorem renewClaim_changes (c : Claim) (s : State) : changes paramUse s (renewClaim c s) := by
  unfold renewClaim
  repeat' first
    | (with_reducible apply changes.refl)
    | (with_reducible assumption)
    | split
    | (with_reducible apply changes.step (renewWatch_changes ..))
    | (with_reducible apply changes.step (renewGap_changes ..))
    | (with_reducible apply changes.step (renewSearch_changes ..))
    | (with_reducible apply changes.step (startSearchIfDue_changes ..))
    | decide

theorem areaTest_changes (u : Sub) (s : State) : changes paramUse s (areaTest u s) := by
  unfold areaTest
  try dsimp only
  repeat' first
    | (with_reducible apply changes.refl)
    | (with_reducible assumption)
    | split
    | (with_reducible apply changes.step (modRec_changes ..))
    | (with_reducible apply changes.step (checkParam_changes ..))
    | (with_reducible apply changes.step (post_changes ..))
    | decide

theorem setServing_changes (u : Sub) (key : Key) (area tCell g : Nat) (s : State) :
    changes paramUse s (setServing u key area tCell g s) := by
  unfold setServing
  try dsimp only
  repeat' first
    | (with_reducible apply changes.refl)
    | (with_reducible assumption)
    | (with_reducible apply changes.modSub)
    | (with_reducible apply changes.step (checkParam_changes ..))
    | (with_reducible apply changes.step (areaTest_changes ..))
    | decide
    | exact .inl (by decide)
    | exact .inr (fun _ => rfl)

theorem takeServingCell_changes (u : Sub) (k : Key) (s : State) : changes paramUse s (takeServingCell u k s).1 := by
  unfold takeServingCell
  try dsimp only
  repeat' first
    | (with_reducible apply changes.refl)
    | (with_reducible assumption)
    | split
    | (dsimp only)
    | (with_reducible apply changes.step (lookupOrAllocate_changes ..))
    | (with_reducible apply changes.step (checkParam_changes ..))
    | (with_reducible apply changes.step (modCell_changes ..))
    | (with_reducible apply changes.step (pinServing_changes ..))
    | (with_reducible apply changes.of_fst; (focus assumption))
    | decide

theorem camp_changes (u : Sub) (r : AcqResult) (s : State) : changes (paramUse ++ [.state]) s (camp u r s).1 := by
  unfold camp
  try dsimp only
  repeat' first
    | (with_reducible apply changes.refl)
    | (with_reducible assumption)
    | split
    | (dsimp only)
    | (with_reducible apply changes.modSub)
    | (with_reducible apply changes.step (takeServingCell_changes ..))
    | (with_reducible apply changes.step (setServing_changes ..))
    | (with_reducible apply changes.step (leaveSearch_changes ..))
    | (with_reducible apply changes.step (insertWatch_changes ..))
    | (with_reducible apply changes.step (post_changes ..))
    | (with_reducible apply changes.of_fst; (focus assumption))
    | decide
    | exact .inl (by decide)

theorem markBarred_changes (k : Key) (s : State) : changes paramUse s (markBarred k s) := by
  unfold markBarred
  repeat' first
    | (with_reducible apply changes.refl)
    | (with_reducible assumption)
    | (with_reducible apply changes.step (writeBarred_changes ..))
    | decide

theorem initialFail_changes (u : Sub) (s : State) : changes paramUse s (initialFail u s) := by
  unfold initialFail
  repeat' first
    | (with_reducible apply changes.refl)
    | (with_reducible assumption)
    | (with_reducible apply changes.modSub)
    | (with_reducible apply changes.step (startSearchIfDue_changes ..))
    | decide
    | exact .inl (by decide)
    | exact .inr (fun _ => rfl)

theorem initialResult_changes (u : Sub) (r : AcqResult) (s : State) :
    changes (paramUse ++ [.state]) s (initialResult u r s) := by
  unfold initialResult
  repeat' first
    | (with_reducible apply changes.refl)
    | (with_reducible assumption)
    | split
    | (with_reducible apply changes.step (initialFail_changes ..))
    | (with_reducible apply changes.step (markBarred_changes ..))
    | (with_reducible apply changes.step (camp_changes ..))
    | (dsimp only)
    | (with_reducible apply changes.of_fst; (focus assumption))
    | decide

theorem takeOffer_changes (u : Sub) (k : Key) (s : State) : changes paramUse s (takeOffer u k s) := by
  unfold takeOffer
  try dsimp only
  repeat' first
    | (with_reducible apply changes.refl)
    | (with_reducible assumption)
    | (with_reducible apply changes.modSub)
    | (with_reducible apply changes.step (cntPgm_changes ..))
    | (with_reducible apply changes.step (insertClaim_changes ..))
    | (with_reducible apply changes.ite <;> intro _)
    | decide
    | exact .inl (by decide)
    | exact .inr (fun _ => rfl)

theorem followRhythm_changes (u : Sub) (old : Option (Nat × Nat)) (s : State) :
    changes listUse s (followRhythm u old s) := by
  unfold followRhythm
  try dsimp only
  repeat' first
    | (with_reducible apply changes.refl)
    | (with_reducible assumption)
    | split
    | (with_reducible apply changes.step (moveWatch_changes ..))
    | decide

theorem reselectFound_changes (u : Sub) (r : AcqResult) (s : State) : changes paramUse s (reselectFound u r s) := by
  unfold reselectFound
  try dsimp only
  repeat' first
    | (with_reducible apply changes.refl)
    | (with_reducible assumption)
    | split
    | (with_reducible apply changes.modSub)
    | (with_reducible apply changes.step (cntPgm_changes ..))
    | (with_reducible apply changes.step (takeServingCell_changes ..))
    | (with_reducible apply changes.step (reselectFail_changes ..))
    | (with_reducible apply changes.step (setServing_changes ..))
    | (with_reducible apply changes.step (zeroTriggers_changes ..))
    | (with_reducible apply changes.step (post_changes ..))
    | (dsimp only)
    | (with_reducible apply changes.of_fst; (focus assumption))
    | (with_reducible apply changes.step (followRhythm_changes ..))
    | decide
    | exact .inl (by decide)
    | exact .inr (fun _ => rfl)

theorem reselectResult_changes (u : Sub) (r : AcqResult) (s : State) : changes paramUse s (reselectResult u r s) := by
  unfold reselectResult
  repeat' first
    | (with_reducible apply changes.refl)
    | (with_reducible assumption)
    | (with_reducible apply changes.step (reselectFail_changes ..))
    | (with_reducible apply changes.step (markBarred_changes ..))
    | (with_reducible apply changes.step (reselectFound_changes ..))
    | (with_reducible apply changes.ite <;> intro _)
    | (with_reducible apply changes.step (lookup_changes ..))
    | decide

theorem searchOffer_changes (u : Sub) (r : AcqResult) (s : State) :
    changes (paramUse ++ [.state]) s (searchOffer u r s) := by
  unfold searchOffer
  repeat' first
    | (with_reducible apply changes.refl)
    | (with_reducible assumption)
    | (with_reducible apply changes.step (markBarred_changes ..))
    | (with_reducible apply changes.step (camp_changes ..))
    | (with_reducible apply changes.ite <;> intro _)
    | decide

theorem discardResult_changes (r : AcqResult) (s : State) : changes paramUse s (discardResult r s) := by
  unfold discardResult
  try dsimp only
  repeat' first
    | (with_reducible apply changes.refl)
    | (with_reducible assumption)
    | (with_reducible apply changes.step (cntPgm_changes ..))
    | (with_reducible apply changes.step (markBarred_changes ..))
    | (with_reducible apply changes.ite <;> intro _)
    | decide

theorem matchItem_changes (u : Sub) (k : IdKind) (i : PageItem) (s : State) :
    changes (listUse ++ [.part .subA, .part .subB, .part .identity]) s (matchItem u k i s).1 := by
  unfold matchItem
  try dsimp only
  repeat' first
    | (with_reducible apply changes.refl)
    | (with_reducible assumption)
    | (dsimp only)
    | (with_reducible apply changes.foldl)
    | (with_reducible apply changes.step (checkIdentity_changes ..))
    | (with_reducible apply changes.foldl_fst)
    | (intro _ _ _)
    | decide

theorem pageItem_changes (u : Sub) (i : PageItem) (x : State × PageTally) :
    changes (paramUse ++ [.part .identity, .part .screen]) x.1 (pageItem u i x).1 := by
  unfold pageItem
  try dsimp only
  repeat' first
    | (with_reducible apply changes.refl)
    | (with_reducible assumption)
    | split
    | (dsimp only)
    | (with_reducible apply changes.step (cntPgm_changes ..))
    | (with_reducible apply changes.step (matchItem_changes ..))
    | (with_reducible apply changes.step (post_changes ..))
    | (with_reducible apply changes.step (screeningCheck_changes ..))
    | (with_reducible apply changes.of_fst; (focus assumption))
    | decide

theorem insertReply_changes (u : Sub) (start : Nat) (items : List ReplyItem) (s : State) :
    changes paramUse s (insertReply u start items s) := by
  unfold insertReply
  try dsimp only
  repeat' first
    | (with_reducible apply changes.refl)
    | (with_reducible assumption)
    | (with_reducible apply changes.step (appendItems_changes ..))
    | (with_reducible apply changes.step (insertClaim_changes ..))
    | (with_reducible apply changes.ite <;> intro _)
    | decide

theorem placePageClaims_changes (u : Sub) (fn : Nat) (t : PageTally) (s : State) :
    changes paramUse s (placePageClaims u fn t s) := by
  unfold placePageClaims
  try dsimp only
  repeat' first
    | (with_reducible apply changes.refl)
    | (with_reducible assumption)
    | (with_reducible apply changes.step (modRec_changes ..))
    | (with_reducible apply changes.step (insertClaim_changes ..))
    | (with_reducible apply changes.step (removeClaims_changes ..))
    | (with_reducible apply changes.step (insertReply_changes ..))
    | (with_reducible apply changes.step (syncWindow_changes ..))
    | (with_reducible apply changes.ite <;> intro _)
    | decide

theorem takePage_changes (u : Sub) (fn : Nat) (items : List PageItem) (s : State) :
    changes (paramUse ++ [.part .identity, .part .screen]) s (takePage u fn items s) := by
  unfold takePage
  try dsimp only
  repeat' first
    | (with_reducible apply changes.refl)
    | (with_reducible assumption)
    | split
    | (with_reducible apply changes.foldl)
    | (with_reducible apply changes.step (modRec_changes ..))
    | (with_reducible apply changes.step (cntPgm_changes ..))
    | (with_reducible apply changes.step (pageItem_changes ..))
    | (with_reducible apply changes.step (placePageClaims_changes ..))
    | (dsimp only)
    | (with_reducible apply changes.of_fst; (focus assumption))
    | (with_reducible apply changes.foldl_fst)
    | (intro _ _ _)
    | decide

theorem watchGranted_changes (u : Sub) (fn : Nat) (s : State) : changes paramUse s (watchGranted u fn s) := by
  unfold watchGranted
  try dsimp only
  repeat' first
    | (with_reducible apply changes.refl)
    | (with_reducible assumption)
    | (with_reducible apply changes.step (modRec_changes ..))
    | (with_reducible apply changes.step (insertReply_changes ..))
    | (with_reducible apply changes.ite <;> intro _)
    | decide

theorem offerReplyItem_changes (u : Sub) (fn : Nat) (item : ReplyItem) (s : State) :
    changes [.part .rta, .part .pgm] s (offerReplyItem u fn item s).1 := by
  unfold offerReplyItem
  try dsimp only
  repeat' first
    | (with_reducible apply changes.refl)
    | (with_reducible assumption)
    | split
    | (dsimp only)
    | (with_reducible apply changes.step (cntPgm_changes ..))
    | (with_reducible apply changes.step (appendItems_changes ..))
    | decide

theorem setGroup_changes (i : Nat) (g : Option Group) (s : State) : changes [.part .txs] s (setGroup i g s) := by
  unfold setGroup
  repeat' first
    | (with_reducible apply changes.refl)
    | (with_reducible assumption)
    | (with_reducible apply changes.step (modTxs_changes ..))
    | decide

theorem freeSlotsOf_changes (g : Group) (s : State) : changes [.part .txs] s (freeSlotsOf g s) := by
  unfold freeSlotsOf
  repeat' first
    | (with_reducible apply changes.refl)
    | (with_reducible assumption)
    | split
    | (with_reducible apply changes.step (modTxs_changes ..))
    | decide

theorem countLost_changes (x : State × Bool) : changes [.part .txs] x.1 (countLost x) := by
  unfold countLost
  repeat' first
    | (with_reducible apply changes.refl)
    | (with_reducible assumption)
    | (with_reducible apply changes.step (cntTxs_changes ..))
    | (with_reducible apply changes.ite <;> intro _)
    | decide

theorem offerAnswer_changes (p : TextPath) (u : Sub) (g : RawSegment) (a : TextAnswer) (s : State) :
    changes [.part .rta, .part .pgm, .part .brt, .part .txs] s (offerAnswer p u g a s) := by
  unfold offerAnswer
  repeat' first
    | (with_reducible apply changes.refl)
    | (with_reducible assumption)
    | split
    | (with_reducible apply changes.step (countLost_changes ..))
    | (with_reducible apply changes.step (offerReplyItem_changes ..))
    | (with_reducible apply changes.step (joinQueue_changes ..))
    | decide

theorem signalFull_changes (u : Sub) (s : State) :
    changes (eventUse ++ [.part .rta, .part .subA, .part .subB]) s (signalFull u s) := by
  unfold signalFull
  repeat' first
    | (with_reducible apply changes.refl)
    | (with_reducible assumption)
    | (with_reducible apply changes.step (post_changes ..))
    | (with_reducible apply changes.step (setNotice_changes ..))
    | (with_reducible apply changes.ite <;> intro _)
    | decide

theorem readyDue_changes (u : Sub) (s : State) :
    changes [.part .rta, .part .subA, .part .subB, .part .brt] s (readyDue u s) := by
  unfold readyDue
  repeat' first
    | (with_reducible apply changes.refl)
    | (with_reducible assumption)
    | (with_reducible apply changes.step (offerStoreReady_changes ..))
    | (with_reducible apply changes.step (setNotice_changes ..))
    | (with_reducible apply changes.ite <;> intro _)
    | decide

theorem watermarkTest_changes (s : State) :
    changes [.part .rta, .part .subA, .part .subB, .part .brt] s (watermarkTest s) := by
  unfold watermarkTest
  repeat' first
    | (with_reducible apply changes.refl)
    | (with_reducible assumption)
    | (with_reducible apply changes.step (readyDue_changes ..))
    | (with_reducible apply changes.ite <;> intro _)
    | decide

theorem makeReady_changes (i : Nat) (g : Group) (partialMark : Bool) (s : State) :
    changes [.part .txs] s (makeReady i g partialMark s) := by
  unfold makeReady
  repeat' first
    | (with_reducible apply changes.refl)
    | (with_reducible assumption)
    | (with_reducible apply changes.step (modTxs_changes ..))
    | (with_reducible apply changes.step (setGroup_changes ..))
    | decide

theorem fillSlot_changes (u : Sub) (g : RawSegment) (s : State) : changes [.part .txs] s (fillSlot u g s) := by
  unfold fillSlot
  try dsimp only
  repeat' first
    | (with_reducible apply changes.refl)
    | (with_reducible assumption)
    | (with_reducible apply changes.step (modTxs_changes ..))
    | (with_reducible apply changes.step (cntTxs_changes ..))
    | decide

theorem completeIfWhole_changes (i : Nat) (g : Group) (s : State) :
    changes (eventUse ++ [.part .txs]) s (completeIfWhole i g s) := by
  unfold completeIfWhole
  repeat' first
    | (with_reducible apply changes.refl)
    | (with_reducible assumption)
    | (with_reducible apply changes.step (cntTxs_changes ..))
    | (with_reducible apply changes.step (post_changes ..))
    | (with_reducible apply changes.step (makeReady_changes ..))
    | (with_reducible apply changes.ite <;> intro _)
    | decide

theorem joinGroup_changes (i : Nat) (u : Sub) (g : RawSegment) (held : Option Group) (s : State) :
    changes (paramUse ++ [.part .txs]) s (joinGroup i u g held s) := by
  unfold joinGroup
  try dsimp only
  repeat' first
    | (with_reducible apply changes.refl)
    | (with_reducible assumption)
    | split
    | (with_reducible apply changes.step (completeIfWhole_changes ..))
    | (with_reducible apply changes.step (setGroup_changes ..))
    | (with_reducible apply changes.step (checkParam_changes ..))
    | decide

theorem refuseFull_changes (p : TextPath) (u : Sub) (g : RawSegment) (s : State) :
    changes (eventUse ++ [.part .rta, .part .subA, .part .subB, .part .pgm, .part .brt, .part .txs]) s (refuseFull p u g s) := by
  unfold refuseFull
  repeat' first
    | (with_reducible apply changes.refl)
    | (with_reducible assumption)
    | (with_reducible apply changes.step (cntTxs_changes ..))
    | (with_reducible apply changes.step (offerAnswer_changes ..))
    | (with_reducible apply changes.step (signalFull_changes ..))
    | decide

theorem examinePermitted_changes (p : TextPath) (u : Sub) (g : RawSegment) (s : State) :
    changes (paramUse ++ [.part .brt, .part .txs]) s (examinePermitted p u g s) := by
  unfold examinePermitted
  repeat' first
    | (with_reducible apply changes.refl)
    | (with_reducible assumption)
    | split
    | (with_reducible apply changes.step (cntTxs_changes ..))
    | (with_reducible apply changes.step (offerAnswer_changes ..))
    | (with_reducible apply changes.step (refuseFull_changes ..))
    | (with_reducible apply changes.step (joinGroup_changes ..))
    | (with_reducible apply changes.step (fillSlot_changes ..))
    | decide

theorem takeSegment_changes (p : TextPath) (u : Sub) (g : RawSegment) (s : State) :
    changes (paramUse ++ [.part .screen, .part .brt, .part .txs]) s (takeSegment p u g s) := by
  unfold takeSegment
  repeat' first
    | (with_reducible apply changes.refl)
    | (with_reducible assumption)
    | split
    | (with_reducible apply changes.step (cntTxs_changes ..))
    | (with_reducible apply changes.step (screeningCheck_changes ..))
    | (with_reducible apply changes.step (offerAnswer_changes ..))
    | (with_reducible apply changes.step (examinePermitted_changes ..))
    | (dsimp only)
    | (with_reducible apply changes.of_fst; (focus assumption))
    | decide

theorem expireGroup_changes (i : Nat) (g : Group) (s : State) :
    changes (eventUse ++ [.part .txs]) s (expireGroup i g s) := by
  unfold expireGroup
  repeat' first
    | (with_reducible apply changes.refl)
    | (with_reducible assumption)
    | (with_reducible apply changes.step (cntTxs_changes ..))
    | (with_reducible apply changes.step (post_changes ..))
    | (with_reducible apply changes.step (makeReady_changes ..))
    | decide

theorem expiryStepOne_changes (s : State) (i : Nat) : changes (eventUse ++ [.part .txs]) s (expiryStepOne s i) := by
  unfold expiryStepOne
  repeat' first
    | (with_reducible apply changes.refl)
    | (with_reducible assumption)
    | split
    | (with_reducible apply changes.step (expireGroup_changes ..))
    | (with_reducible apply changes.step (setGroup_changes ..))
    | decide

theorem expiryStep_changes (s : State) : changes (eventUse ++ [.part .txs]) s (expiryStep s) := by
  unfold expiryStep
  repeat' first
    | (with_reducible apply changes.refl)
    | (with_reducible assumption)
    | (with_reducible apply changes.foldl)
    | (with_reducible apply changes.step (expiryStepOne_changes ..))
    | (with_reducible apply changes.ite <;> intro _)
    | (dsimp only)
    | (with_reducible apply changes.foldl_fst)
    | (intro _ _ _)
    | decide

theorem removeGroup_changes (i : Nat) (g : Group) (s : State) : changes [.part .txs] s (removeGroup i g s) := by
  unfold removeGroup
  repeat' first
    | (with_reducible apply changes.refl)
    | (with_reducible assumption)
    | (with_reducible apply changes.step (setGroup_changes ..))
    | (with_reducible apply changes.step (freeSlotsOf_changes ..))
    | decide

theorem discardOne_changes (p : Group → Bool) (s : State) (i : Nat) : changes [.part .txs] s (discardOne p s i) := by
  unfold discardOne
  repeat' first
    | (with_reducible apply changes.refl)
    | (with_reducible assumption)
    | split
    | (with_reducible apply changes.step (cntTxs_changes ..))
    | (with_reducible apply changes.step (removeGroup_changes ..))
    | decide

theorem discardOpen_changes (p : Group → Bool) (s : State) : changes [.part .txs] s (discardOpen p s) := by
  unfold discardOpen
  repeat' first
    | (with_reducible apply changes.refl)
    | (with_reducible assumption)
    | (with_reducible apply changes.foldl)
    | (with_reducible apply changes.step (discardOne_changes ..))
    | (dsimp only)
    | (with_reducible apply changes.foldl_fst)
    | (intro _ _ _)
    | decide

end Sys2Proof.Machine
end

