-- ==== Sys2Proof/Laws/Contexts.lean ====
section
/-! SUPPORT. What each operation of Machine/Contexts.lean, Handover.lean and Measure.lean can change at most. -/

namespace Sys2Proof.Machine

-- One lemma at a time: elaborated together they would each take a thread.
set_option Elab.async false

theorem setConnected_changes (u : Sub) (b : Bool) (s : State) :
    changes (globalUse ++ [.part .rta, .connected]) s (setConnected u b s) := by
  unfold setConnected
  repeat' first
    | (with_reducible apply changes.refl)
    | (with_reducible assumption)
    | (with_reducible apply changes.modRta)
    | (with_reducible apply changes.step (refreshWake_changes ..))
    | decide
    | exact .inl (by decide)
    | exact .inr (fun _ => rfl)

theorem setHoExec_changes (o : Option Sub) (s : State) :
    changes (globalUse ++ [.part .rta, .hoExec]) s (setHoExec o s) := by
  unfold setHoExec
  repeat' first
    | (with_reducible apply changes.refl)
    | (with_reducible assumption)
    | (with_reducible apply changes.modRta)
    | (with_reducible apply changes.step (refreshWake_changes ..))
    | decide
    | exact .inl (by decide)
    | exact .inr (fun _ => rfl)

theorem setState_changes (u : Sub) (st : SubState) (s : State) :
    changes [.part .subA, .part .subB, .state] s (setState u st s) := by
  unfold setState
  repeat' first
    | (with_reducible apply changes.refl)
    | (with_reducible assumption)
    | (with_reducible apply changes.modSub)
    | decide
    | exact .inl (by decide)

theorem setTiming_changes (u : Sub) (t : Option Nat) (s : State) : changes [.part .hxu] s (setTiming u t s) := by
  unfold setTiming
  repeat' first
    | (with_reducible apply changes.refl)
    | (with_reducible assumption)
    | (with_reducible apply changes.modHxu)
    | decide
    | exact .inl (by decide)
    | exact .inr (fun _ => rfl)

theorem dropWatch_changes (u : Sub) (s : State) : changes listUse s (dropWatch u s) := by
  unfold dropWatch
  repeat' first
    | (with_reducible apply changes.refl)
    | (with_reducible assumption)
    | (with_reducible apply changes.step (modRec_changes ..))
    | (with_reducible apply changes.step (removeClaims_changes ..))
    | decide

theorem abandonReselection_changes (u : Sub) (s : State) :
    changes (listUse ++ [.part .subA, .part .subB]) s (abandonReselection u s) := by
  unfold abandonReselection
  repeat' first
    | (with_reducible apply changes.refl)
    | (with_reducible assumption)
    | (with_reducible apply changes.modSub)
    | (with_reducible apply changes.step (removeClaims_changes ..))
    | (with_reducible apply changes.ite <;> intro _)
    | decide
    | exact .inl (by decide)
    | exact .inr (fun _ => rfl)

theorem linkEnd_changes (u : Sub) (s : State) :
    changes (globalUse ++ [.part .rta, .part .subA, .part .subB, .part .bearer, .part .hxu, .part .brt, .connected, .radioLoop]) s (linkEnd u s) := by
  unfold linkEnd
  try dsimp only
  repeat' first
    | (with_reducible apply changes.refl)
    | (with_reducible assumption)
    | (with_reducible apply changes.modSub)
    | (with_reducible apply changes.step (setConnected_changes ..))
    | (with_reducible apply changes.step (idleBearers_changes ..))
    | (with_reducible apply changes.step (flushQueue_changes ..))
    | (with_reducible apply changes.step (openLoopOf_changes ..))
    | (with_reducible apply changes.step (setTiming_changes ..))
    | decide
    | exact .inl (by decide)
    | exact .inr (fun _ => rfl)

theorem campFromLink_changes (u : Sub) (s : State) :
    changes (paramUse ++ [.part .bearer, .part .brt, .connected, .state, .radioLoop]) s (campFromLink u s) := by
  unfold campFromLink
  repeat' first
    | (with_reducible apply changes.refl)
    | (with_reducible assumption)
    | (with_reducible apply changes.step (insertWatch_changes ..))
    | (with_reducible apply changes.step (zeroTriggers_changes ..))
    | (with_reducible apply changes.step (setState_changes ..))
    | (with_reducible apply changes.step (linkEnd_changes ..))
    | decide

theorem enterConnecting_changes (u : Sub) (s : State) :
    changes (paramUse ++ [.part .brt, .connected, .state]) s (enterConnecting u s) := by
  unfold enterConnecting
  try dsimp only
  repeat' first
    | (with_reducible apply changes.refl)
    | (with_reducible assumption)
    | (with_reducible apply changes.modSub)
    | (with_reducible apply changes.step (dropWatch_changes ..))
    | (with_reducible apply changes.step (abandonReselection_changes ..))
    | (with_reducible apply changes.step (setState_changes ..))
    | (with_reducible apply changes.step (checkParam_changes ..))
    | (with_reducible apply changes.step (offerStoreReady_changes ..))
    | (with_reducible apply changes.step (zeroTriggers_changes ..))
    | (with_reducible apply changes.step (setConnected_changes ..))
    | decide
    | exact .inl (by decide)

theorem linkRequest_changes (u : Sub) (body : Octets) (s : State) :
    changes (paramUse ++ [.part .brt, .connected, .state]) s (linkRequest u body s) := by
  unfold linkRequest
  try dsimp only
  repeat' first
    | (with_reducible apply changes.refl)
    | (with_reducible assumption)
    | split
    | (with_reducible apply changes.step (joinQueue_changes ..))
    | (with_reducible apply changes.step (upDiscard_changes ..))
    | (with_reducible apply changes.step (post_changes ..))
    | (with_reducible apply changes.step (enterConnecting_changes ..))
    | (dsimp only)
    | (with_reducible apply changes.of_fst; (focus assumption))
    | decide

theorem linkGrant_changes (u : Sub) (s : State) : changes (paramUse ++ [.state]) s (linkGrant u s) := by
  unfold linkGrant
  repeat' first
    | (with_reducible apply changes.refl)
    | (with_reducible assumption)
    | (with_reducible apply changes.modSub)
    | (with_reducible apply changes.step (startGap_changes ..))
    | (with_reducible apply changes.ite <;> intro _)
    | decide
    | exact .inl (by decide)

theorem connectTimeout_changes (u : Sub) (s : State) :
    changes (paramUse ++ [.part .bearer, .part .brt, .connected, .state, .radioLoop]) s (connectTimeout u s) := by
  unfold connectTimeout
  repeat' first
    | (with_reducible apply changes.refl)
    | (with_reducible assumption)
    | (with_reducible apply changes.step (post_changes ..))
    | (with_reducible apply changes.step (campFromLink_changes ..))
    | decide

theorem guardStep_changes (u : Sub) (s : State) :
    changes (paramUse ++ [.part .bearer, .part .brt, .connected, .state, .radioLoop]) s (guardStep u s) := by
  unfold guardStep
  repeat' first
    | (with_reducible apply changes.refl)
    | (with_reducible assumption)
    | split
    | (with_reducible apply changes.modSub)
    | (with_reducible apply changes.step (connectTimeout_changes ..))
    | decide
    | exact .inl (by decide)

theorem enterSearch_changes (u : Sub) (s : State) : changes (paramUse ++ [.state]) s (enterSearch u s) := by
  unfold enterSearch
  try dsimp only
  repeat' first
    | (with_reducible apply changes.refl)
    | (with_reducible assumption)
    | (with_reducible apply changes.modSub)
    | (with_reducible apply changes.step (modRec_changes ..))
    | (with_reducible apply changes.step (setState_changes ..))
    | (with_reducible apply changes.step (removeClaims_changes ..))
    | (with_reducible apply changes.step (releaseServing_changes ..))
    | (with_reducible apply changes.step (startSearch_changes ..))
    | decide
    | exact .inl (by decide)

theorem lossOfService_changes (u : Sub) (s : State) :
    changes (paramUse ++ [.part .bearer, .part .brt, .connected, .state, .radioLoop]) s (lossOfService u s) := by
  unfold lossOfService
  try dsimp only
  repeat' first
    | (with_reducible apply changes.refl)
    | (with_reducible assumption)
    | split
    | (with_reducible apply changes.step (post_changes ..))
    | (with_reducible apply changes.step (enterSearch_changes ..))
    | (with_reducible apply changes.step (abandonReselection_changes ..))
    | (with_reducible apply changes.step (linkEnd_changes ..))
    | decide

theorem endVoice_changes (u : Sub) (s : State) :
    changes (eventUse ++ [.part .bearer, .part .vpb]) s (endVoice u s) := by
  unfold endVoice
  try dsimp only
  repeat' first
    | (with_reducible apply changes.refl)
    | (with_reducible assumption)
    | split
    | (with_reducible apply changes.step (idleBearers_changes ..))
    | (with_reducible apply changes.step (restartOcc_changes ..))
    | decide

theorem detach_changes (u : Sub) (s : State) :
    changes (paramUse ++ [.part .bearer, .part .brt, .part .txs, .connected, .state, .radioLoop]) s (detach u s) := by
  unfold detach
  try dsimp only
  repeat' first
    | (with_reducible apply changes.refl)
    | (with_reducible assumption)
    | split
    | (with_reducible apply changes.modSub)
    | (with_reducible apply changes.step (modRec_changes ..))
    | (with_reducible apply changes.step (setState_changes ..))
    | (with_reducible apply changes.step (removeClaims_changes ..))
    | (with_reducible apply changes.step (setConnected_changes ..))
    | (with_reducible apply changes.step (detachCells_changes ..))
    | (with_reducible apply changes.step (flushQueue_changes ..))
    | (with_reducible apply changes.step (openLoopOf_changes ..))
    | (with_reducible apply changes.step (setNotice_changes ..))
    | (with_reducible apply changes.step (leaveSearch_changes ..))
    | (with_reducible apply changes.step (setTiming_changes ..))
    | (with_reducible apply changes.step (discardOpen_changes ..))
    | (with_reducible apply changes.step (watermarkTest_changes ..))
    | (with_reducible apply changes.step (endVoice_changes ..))
    | decide
    | exact .inl (by decide)

theorem acceptOrder_changes (u : Sub) (target : Key) (guard : Nat) (s : State) :
    changes (paramUse ++ [.part .bearer, .hoExec, .state, .frozen, .runSub]) s (acceptOrder u target guard s) := by
  unfold acceptOrder
  try dsimp only
  repeat' first
    | (with_reducible apply changes.refl)
    | (with_reducible assumption)
    | split
    | (with_reducible apply changes.modHxu)
    | (with_reducible apply changes.step (cntHxu_changes ..))
    | (with_reducible apply changes.step (lookupOrAllocate_changes ..))
    | (with_reducible apply changes.step (modCell_changes ..))
    | (with_reducible apply changes.step (setFrozen_changes ..))
    | (with_reducible apply changes.step (holdBearers_changes ..))
    | (with_reducible apply changes.step (setHoExec_changes ..))
    | (with_reducible apply changes.step (setState_changes ..))
    | decide
    | exact .inl (by decide)

theorem ignoreOrder_changes (u : Option Sub) (target : Key) (guard cause : Nat) (s : State) :
    changes (eventUse ++ [.part .hxu, .part .brt]) s (ignoreOrder u target guard cause s) := by
  unfold ignoreOrder
  try dsimp only
  repeat' first
    | (with_reducible apply changes.refl)
    | (with_reducible assumption)
    | (with_reducible apply changes.step (cntHxu_changes ..))
    | (with_reducible apply changes.step (post_changes ..))
    | (with_reducible apply changes.step (forward_changes ..))
    | (with_reducible apply changes.ite <;> intro _)
    | decide

theorem takeOrder_changes (u : Option Sub) (target : Key) (guard : Nat) (s : State) :
    changes (paramUse ++ [.part .bearer, .part .brt, .hoExec, .state, .frozen, .runSub]) s (takeOrder u target guard s) := by
  unfold takeOrder
  repeat' first
    | (with_reducible apply changes.refl)
    | (with_reducible assumption)
    | split
    | (with_reducible apply changes.step (ignoreOrder_changes ..))
    | (with_reducible apply changes.step (acceptOrder_changes ..))
    | decide

theorem releasePins_changes (s : State) : changes (paramUse ++ [.frozen]) s (releasePins s) := by
  unfold releasePins
  repeat' first
    | (with_reducible apply changes.refl)
    | (with_reducible assumption)
    | (with_reducible apply changes.step (setFrozen_changes ..))
    | (with_reducible apply changes.step (releaseTarget_changes ..))
    | decide

theorem clearRun_changes (s : State) : changes [.part .pgm, .part .hxu, .runSub] s (clearRun s) := by
  unfold clearRun
  repeat' first
    | (with_reducible apply changes.refl)
    | (with_reducible assumption)
    | (with_reducible apply changes.modHxu)
    | (with_reducible apply changes.step (modPgm_changes ..))
    | decide
    | exact .inl (by decide)

theorem writeTrigger_changes (u : Sub) (s : State) (t : TrigRec) : changes paramUse s (writeTrigger u s t) := by
  unfold writeTrigger
  try dsimp only
  repeat' first
    | (with_reducible apply changes.refl)
    | (with_reducible assumption)
    | (with_reducible apply changes.step (useCell_changes ..))
    | (with_reducible apply changes.step (modCell_changes ..))
    | (with_reducible apply changes.ite <;> intro _)
    | decide

theorem writeTriggers_changes (r : HoRun) (s : State) : changes paramUse s (writeTriggers r s) := by
  unfold writeTriggers
  repeat' first
    | (with_reducible apply changes.refl)
    | (with_reducible assumption)
    | (with_reducible apply changes.foldl)
    | (with_reducible apply changes.step (writeTrigger_changes ..))
    | split
    | (intro _ _ _)
    | decide

theorem applyLoop_changes (r : HoRun) (s : State) :
    changes (eventUse ++ [.part .vpb, .radioLoop]) s (applyLoop r s) := by
  unfold applyLoop
  repeat' first
    | (with_reducible apply changes.refl)
    | (with_reducible assumption)
    | (with_reducible apply changes.step (closeRadioLoop_changes ..))
    | (with_reducible apply changes.step (openRadioLoop_changes ..))
    | (with_reducible apply changes.ite <;> intro _)
    | decide

theorem backToConnected_changes (u : Sub) (s : State) :
    changes (paramUse ++ [.part .bearer, .hoExec, .state]) s (backToConnected u s) := by
  unfold backToConnected
  repeat' first
    | (with_reducible apply changes.refl)
    | (with_reducible assumption)
    | (with_reducible apply changes.step (resumeBearers_changes ..))
    | (with_reducible apply changes.step (startGap_changes ..))
    | (with_reducible apply changes.step (setState_changes ..))
    | (with_reducible apply changes.step (setHoExec_changes ..))
    | decide

theorem restore_changes (r : HoRun) (cause : Nat) (s : State) :
    changes (paramUse ++ [.part .bearer, .part .brt, .hoExec, .state, .frozen, .runSub, .radioLoop]) s (restore r cause s) := by
  unfold restore
  try dsimp only
  repeat' first
    | (with_reducible apply changes.refl)
    | (with_reducible assumption)
    | (with_reducible apply changes.step (cntHxu_changes ..))
    | (with_reducible apply changes.step (writeTriggers_changes ..))
    | (with_reducible apply changes.step (releasePins_changes ..))
    | (with_reducible apply changes.step (checkParam_changes ..))
    | (with_reducible apply changes.step (givePenalty_changes ..))
    | (with_reducible apply changes.step (placeHead_changes ..))
    | (with_reducible apply changes.step (applyLoop_changes ..))
    | (with_reducible apply changes.step (backToConnected_changes ..))
    | (with_reducible apply changes.step (clearRun_changes ..))
    | (with_reducible apply changes.step (post_changes ..))
    | decide

theorem commitRecord_changes (r : HoRun) (s : State) : changes paramUse s (commitRecord r s) := by
  unfold commitRecord
  repeat' first
    | (with_reducible apply changes.refl)
    | (with_reducible assumption)
    | split
    | (with_reducible apply changes.modSub)
    | (with_reducible apply changes.step (setServing_changes ..))
    | decide
    | exact .inl (by decide)
    | exact .inr (fun _ => rfl)

theorem commitOn_changes (r : HoRun) (i timing : Nat) (s : State) :
    changes (paramUse ++ [.part .bearer, .part .brt, .hoExec, .state, .frozen, .runSub]) s (commitOn r i timing s) := by
  unfold commitOn
  try dsimp only
  repeat' first
    | (with_reducible apply changes.refl)
    | (with_reducible assumption)
    | (with_reducible apply changes.step (cntHxu_changes ..))
    | (with_reducible apply changes.step (checkParam_changes ..))
    | (with_reducible apply changes.step (releasePins_changes ..))
    | (with_reducible apply changes.step (pinServing_changes ..))
    | (with_reducible apply changes.step (backToConnected_changes ..))
    | (with_reducible apply changes.step (clearRun_changes ..))
    | (with_reducible apply changes.step (commitRecord_changes ..))
    | (with_reducible apply changes.step (zeroTriggers_changes ..))
    | (with_reducible apply changes.step (placeHead_changes ..))
    | (with_reducible apply changes.step (setTiming_changes ..))
    | (with_reducible apply changes.step (post_changes ..))
    | decide

theorem commit_changes (r : HoRun) (timing : Nat) (s : State) :
    changes (paramUse ++ [.part .bearer, .part .brt, .hoExec, .state, .frozen, .runSub, .radioLoop]) s (commit r timing s) := by
  unfold commit
  repeat' first
    | (with_reducible apply changes.refl)
    | (with_reducible assumption)
    | split
    | (with_reducible apply changes.modHxu)
    | (with_reducible apply changes.step (lookup_changes ..))
    | (with_reducible apply changes.step (restore_changes ..))
    | (with_reducible apply changes.step (commitOn_changes ..))
    | (dsimp only)
    | (with_reducible apply changes.of_fst; (focus assumption))
    | decide
    | exact .inl (by decide)

theorem abandon_changes (r : HoRun) (s : State) :
    changes (paramUse ++ [.part .bearer, .part .brt, .hoExec, .connected, .state, .frozen, .runSub, .radioLoop]) s (abandon r s) := by
  unfold abandon
  try dsimp only
  repeat' first
    | (with_reducible apply changes.refl)
    | (with_reducible assumption)
    | (with_reducible apply changes.step (cntHxu_changes ..))
    | (with_reducible apply changes.step (clearRun_changes ..))
    | (with_reducible apply changes.step (writeTriggers_changes ..))
    | (with_reducible apply changes.step (releasePins_changes ..))
    | (with_reducible apply changes.step (campFromLink_changes ..))
    | (with_reducible apply changes.step (setHoExec_changes ..))
    | decide

theorem hoGuardStep_changes (s : State) :
    changes (paramUse ++ [.part .bearer, .part .brt, .hoExec, .state, .frozen, .runSub, .radioLoop]) s (hoGuardStep s) := by
  unfold hoGuardStep
  repeat' first
    | (with_reducible apply changes.refl)
    | (with_reducible assumption)
    | split
    | (with_reducible apply changes.modHxu)
    | (with_reducible apply changes.step (restore_changes ..))
    | decide
    | exact .inl (by decide)

theorem takeNotice_changes (s : State) :
    changes (paramUse ++ [.part .bearer, .part .brt, .hoExec, .state, .frozen, .runSub, .radioLoop]) s (takeNotice s) := by
  unfold takeNotice
  try dsimp only
  repeat' first
    | (with_reducible apply changes.refl)
    | (with_reducible assumption)
    | split
    | (with_reducible apply changes.modHxu)
    | (with_reducible apply changes.step (restore_changes ..))
    | decide
    | exact .inl (by decide)

theorem countUnused_changes (s : State) : changes [.part .hxu] s (countUnused s) := by
  unfold countUnused
  repeat' first
    | (with_reducible apply changes.refl)
    | (with_reducible assumption)
    | (with_reducible apply changes.step (cntHxu_changes ..))
    | decide

theorem takeSync_changes (u : Sub) (key : Key) (status : SyncResult) (timing : Nat) (s : State) :
    changes (paramUse ++ [.part .bearer, .part .brt, .hoExec, .state, .frozen, .runSub, .radioLoop]) s (takeSync u key status timing s) := by
  unfold takeSync
  repeat' first
    | (with_reducible apply changes.refl)
    | (with_reducible assumption)
    | split
    | (with_reducible apply changes.step (commit_changes ..))
    | (with_reducible apply changes.step (restore_changes ..))
    | (with_reducible apply changes.step (countUnused_changes ..))
    | (with_reducible apply changes.step (setTiming_changes ..))
    | decide

theorem linkRelease_changes (u : Sub) (s : State) :
    changes (paramUse ++ [.part .bearer, .part .brt, .hoExec, .connected, .state, .frozen, .runSub, .radioLoop]) s (linkRelease u s) := by
  unfold linkRelease
  repeat' first
    | (with_reducible apply changes.refl)
    | (with_reducible assumption)
    | split
    | (with_reducible apply changes.step (campFromLink_changes ..))
    | (with_reducible apply changes.step (abandon_changes ..))
    | decide

theorem reportEntry_changes (k : Key) (discovery : Bool) (s : State) :
    changes paramUse s (reportEntry k discovery s).1 := by
  unfold reportEntry
  repeat' first
    | (with_reducible apply changes.refl)
    | (with_reducible assumption)
    | split
    | (dsimp only)
    | (with_reducible apply changes.step (lookup_changes ..))
    | (with_reducible apply changes.step (allocate_changes ..))
    | (with_reducible apply changes.of_fst; (focus assumption))
    | decide

theorem reportCell_changes (u : Sub) (p : Param) (x : State × List (Nat × Key)) (c : RawCell) :
    changes (paramUse ++ [.part .mfu]) x.1 (reportCell u p x c).1 := by
  unfold reportCell
  try dsimp only
  repeat' first
    | (with_reducible apply changes.refl)
    | (with_reducible assumption)
    | split
    | (dsimp only)
    | (with_reducible apply changes.step (modMfu_changes ..))
    | (with_reducible apply changes.step (reportEntry_changes ..))
    | (with_reducible apply changes.step (modCell_changes ..))
    | (with_reducible apply changes.of_fst; (focus assumption))
    | decide

theorem sweepOne_changes (u : Sub) (limit : Nat) (seen : List (Nat × Key)) (x : State × Bool) (i : Nat) :
    changes paramUse x.1 (sweepOne u limit seen x i).1 := by
  unfold sweepOne
  try dsimp only
  repeat' first
    | (with_reducible apply changes.refl)
    | (with_reducible assumption)
    | split
    | (dsimp only)
    | (with_reducible apply changes.step (useCell_changes ..))
    | (with_reducible apply changes.step (modCell_changes ..))
    | (with_reducible apply changes.step (releaseTest_changes ..))
    | decide

theorem sweep_changes (u : Sub) (limit : Nat) (seen : List (Nat × Key)) (s : State) :
    changes paramUse s (sweep u limit seen s).1 := by
  unfold sweep
  repeat' first
    | (with_reducible apply changes.refl)
    | (with_reducible assumption)
    | (dsimp only)
    | (with_reducible apply changes.foldl)
    | (with_reducible apply changes.step (sweepOne_changes ..))
    | (with_reducible apply changes.foldl_fst)
    | (intro _ _ _)
    | decide

theorem weakStep_changes (u : Sub) (p : Param) (s : State) : changes paramUse s (weakStep u p s) := by
  unfold weakStep
  try dsimp only
  repeat' first
    | (with_reducible apply changes.refl)
    | (with_reducible assumption)
    | split
    | (with_reducible apply changes.modSub)
    | (with_reducible apply changes.step (startWeakGap_changes ..))
    | decide
    | exact .inl (by decide)
    | exact .inr (fun _ => rfl)

theorem triggerOne_changes (u : Sub) (connected : Bool) (holds : Cell → Bool) (seen : List (Nat × Key)) (s : State) (i : Nat) :
    changes paramUse s (triggerOne u connected holds seen s i) := by
  unfold triggerOne
  try dsimp only
  repeat' first
    | (with_reducible apply changes.refl)
    | (with_reducible assumption)
    | (with_reducible apply changes.step (useCell_changes ..))
    | (with_reducible apply changes.step (modCell_changes ..))
    | (with_reducible apply changes.ite <;> intro _)
    | decide

theorem idleTrigger_changes (u : Sub) (p : Param) (serving : Nat) (seen : List (Nat × Key)) (s : State) :
    changes (paramUse ++ [.part .mfu]) s (idleTrigger u p serving seen s) := by
  unfold idleTrigger
  try dsimp only
  repeat' first
    | (with_reducible apply changes.refl)
    | (with_reducible assumption)
    | split
    | (with_reducible apply changes.foldl)
    | (with_reducible apply changes.step (modMfu_changes ..))
    | (with_reducible apply changes.step (triggerOne_changes ..))
    | (with_reducible apply changes.step (takeOffer_changes ..))
    | (dsimp only)
    | (with_reducible apply changes.foldl_fst)
    | (intro _ _ _)
    | decide

theorem markReported_changes (u : Sub) (l : List Nat) (s : State) : changes [.part .ctb] s (markReported u l s) := by
  unfold markReported
  repeat' first
    | (with_reducible apply changes.refl)
    | (with_reducible assumption)
    | (with_reducible apply changes.foldl)
    | (with_reducible apply changes.step (modCell_changes ..))
    | (dsimp only)
    | (with_reducible apply changes.foldl_fst)
    | (intro _ _ _)
    | decide

theorem connTrigger_changes (u : Sub) (p : Param) (serving : Nat) (seen : List (Nat × Key)) (s : State) :
    changes (paramUse ++ [.part .mfu, .part .brt]) s (connTrigger u p serving seen s) := by
  unfold connTrigger
  try dsimp only
  repeat' first
    | (with_reducible apply changes.refl)
    | (with_reducible assumption)
    | split
    | (with_reducible apply changes.foldl)
    | (with_reducible apply changes.step (modMfu_changes ..))
    | (with_reducible apply changes.step (triggerOne_changes ..))
    | (with_reducible apply changes.step (joinQueue_changes ..))
    | (with_reducible apply changes.step (markReported_changes ..))
    | (dsimp only)
    | (with_reducible apply changes.of_fst; (focus assumption))
    | (with_reducible apply changes.foldl_fst)
    | (intro _ _ _)
    | decide

theorem triggerStep_changes (u : Sub) (p : Param) (seen : List (Nat × Key)) (s : State) :
    changes (paramUse ++ [.part .mfu, .part .brt]) s (triggerStep u p seen s) := by
  unfold triggerStep
  try dsimp only
  repeat' first
    | (with_reducible apply changes.refl)
    | (with_reducible assumption)
    | split
    | (with_reducible apply changes.step (useCell_changes ..))
    | (with_reducible apply changes.step (idleTrigger_changes ..))
    | (with_reducible apply changes.step (connTrigger_changes ..))
    | decide

theorem penaltyStep_changes (u : Sub) (s : State) : changes paramUse s (penaltyStep u s) := by
  unfold penaltyStep
  try dsimp only
  repeat' first
    | (with_reducible apply changes.refl)
    | (with_reducible assumption)
    | (with_reducible apply changes.foldl)
    | (with_reducible apply changes.step (useCell_changes ..))
    | (with_reducible apply changes.step (modCell_changes ..))
    | (with_reducible apply changes.ite <;> intro _)
    | (dsimp only)
    | (with_reducible apply changes.foldl_fst)
    | (intro _ _ _)
    | decide

theorem takeReport_changes (u : Sub) (cells : List RawCell) (s : State) :
    changes (paramUse ++ [.part .bearer, .part .mfu, .part .brt, .connected, .state, .radioLoop]) s (takeReport u cells s) := by
  unfold takeReport
  try dsimp only
  repeat' first
    | (with_reducible apply changes.refl)
    | (with_reducible assumption)
    | split
    | (with_reducible apply changes.foldl)
    | (with_reducible apply changes.step (modMfu_changes ..))
    | (with_reducible apply changes.step (checkParam_changes ..))
    | (with_reducible apply changes.step (reportCell_changes ..))
    | (with_reducible apply changes.step (sweep_changes ..))
    | (with_reducible apply changes.step (lossOfService_changes ..))
    | (with_reducible apply changes.step (penaltyStep_changes ..))
    | (with_reducible apply changes.step (triggerStep_changes ..))
    | (with_reducible apply changes.step (weakStep_changes ..))
    | (dsimp only)
    | (with_reducible apply changes.of_fst; (focus assumption))
    | (with_reducible apply changes.foldl_fst)
    | (intro _ _ _)
    | decide

end Sys2Proof.Machine
end

