-- ==== Sys2Proof/Laws/Decision.lean ====
section
/-! SUPPORT. What each operation of Machine/Decision.lean, FrontEnd.lean and Clock.lean can change at most. -/

namespace Sys2Proof.Machine

-- One lemma at a time: elaborated together they would each take a thread.
set_option Elab.async false

theorem missClaim_changes (c : Claim) (s : State) : changes paramUse s (missClaim c s) := by
  unfold missClaim
  repeat' first
    | (with_reducible apply changes.refl)
    | (with_reducible assumption)
    | (with_reducible apply changes.step (renewClaim_changes ..))
    | (with_reducible apply changes.step (missedEffect_changes ..))
    | (with_reducible apply changes.step (removeClaims_changes ..))
    | (with_reducible apply changes.ite <;> intro _)
    | decide

theorem loseFrame_changes (s : State) (w : Cand) : changes paramUse s (loseFrame s w) := by
  unfold loseFrame
  repeat' first
    | (with_reducible apply changes.refl)
    | (with_reducible assumption)
    | split
    | (with_reducible apply changes.step (cntRta_changes ..))
    | (with_reducible apply changes.step (missClaim_changes ..))
    | decide

theorem sendVoice_changes (u : Sub) (fn : Nat) (s : State) :
    changes [.part .vpb, .part .fl] s (sendVoice u fn s) := by
  unfold sendVoice
  try dsimp only
  repeat' first
    | (with_reducible apply changes.refl)
    | (with_reducible assumption)
    | split
    | (with_reducible apply changes.modVpb)
    | (with_reducible apply changes.step (cntVpb_changes ..))
    | (with_reducible apply changes.step (countUpDiscarded_changes ..))
    | (with_reducible apply changes.step (sendFl_changes ..))
    | decide
    | exact .inl (by decide)
    | exact .inr (fun _ => rfl)

theorem sendReply_changes (u : Sub) (fn : Nat) (items : List ReplyItem) (s : State) :
    changes [.part .rta, .part .subA, .part .subB, .part .fl] s (sendReply u fn items s) := by
  unfold sendReply
  try dsimp only
  repeat' first
    | (with_reducible apply changes.refl)
    | (with_reducible assumption)
    | (with_reducible apply changes.step (sendFl_changes ..))
    | (with_reducible apply changes.step (setNotice_changes ..))
    | (with_reducible apply changes.ite <;> intro _)
    | decide

theorem tuneAway_changes (u : Sub) (limit : Nat) (s : State) :
    changes (eventUse ++ [.part .rta]) s (tuneAway u limit s) := by
  unfold tuneAway
  repeat' first
    | (with_reducible apply changes.refl)
    | (with_reducible assumption)
    | (with_reducible apply changes.step (cntRta_changes ..))
    | (with_reducible apply changes.step (post_changes ..))
    | decide

theorem grantedClaim_changes (g : Grant) (c : Claim) (s : State) : changes paramUse s (grantedClaim g c s) := by
  unfold grantedClaim
  try dsimp only
  repeat' first
    | (with_reducible apply changes.refl)
    | (with_reducible assumption)
    | split
    | (with_reducible apply changes.modSub)
    | (with_reducible apply changes.step (mapClaims_changes ..))
    | (with_reducible apply changes.step (removeClaims_changes ..))
    | (with_reducible apply changes.step (tuneAway_changes ..))
    | (with_reducible apply changes.step (renewWatch_changes ..))
    | (with_reducible apply changes.step (watchGranted_changes ..))
    | (with_reducible apply changes.step (sendReply_changes ..))
    | (with_reducible apply changes.step (renewClaim_changes ..))
    | decide
    | exact .inl (by decide)
    | exact .inr (fun _ => rfl)

theorem grantSent_changes (g : Grant) (s : State) : changes (paramUse ++ [.part .brt]) s (grantSent g s) := by
  unfold grantSent
  try dsimp only
  repeat' first
    | (with_reducible apply changes.refl)
    | (with_reducible assumption)
    | split
    | (with_reducible apply changes.step (sendFl_changes ..))
    | (with_reducible apply changes.step (sendVoice_changes ..))
    | (with_reducible apply changes.step (drainQueue_changes ..))
    | (with_reducible apply changes.step (grantedClaim_changes ..))
    | decide

theorem passGrant_changes (g : Grant) (s : State) : changes (paramUse ++ [.part .brt]) s (passGrant g s) := by
  unfold passGrant
  repeat' first
    | (with_reducible apply changes.refl)
    | (with_reducible assumption)
    | split
    | (with_reducible apply changes.modFtb)
    | (with_reducible apply changes.step (grantSent_changes ..))
    | (with_reducible apply changes.step (powerOn_changes ..))
    | decide
    | exact .inl (by decide)
    | exact .inr (fun _ => rfl)

theorem voiceDecision_changes (w : Option Cand) (s : State) : changes [.part .vpb] s (voiceDecision w s) := by
  unfold voiceDecision
  try dsimp only
  repeat' first
    | (with_reducible apply changes.refl)
    | (with_reducible assumption)
    | split
    | (with_reducible apply changes.modVpb)
    | (with_reducible apply changes.step (countUpDiscarded_changes ..))
    | decide
    | exact .inl (by decide)
    | exact .inr (fun _ => rfl)

theorem grantDecision_changes (s : State) : changes (paramUse ++ [.part .brt]) s (grantDecision s) := by
  unfold grantDecision
  try dsimp only
  repeat' first
    | (with_reducible apply changes.refl)
    | (with_reducible assumption)
    | split
    | (with_reducible apply changes.foldl)
    | (with_reducible apply changes.modRta)
    | (with_reducible apply changes.step (voiceDecision_changes ..))
    | (with_reducible apply changes.step (passGrant_changes ..))
    | (with_reducible apply changes.step (loseFrame_changes ..))
    | (dsimp only)
    | (with_reducible apply changes.foldl_fst)
    | (intro _ _ _)
    | decide
    | exact .inl (by decide)
    | exact .inr (fun _ => rfl)

theorem beginReacquires_changes (s : State) : changes [.part .rta] s (beginReacquires s) := by
  unfold beginReacquires
  repeat' first
    | (with_reducible apply changes.refl)
    | (with_reducible assumption)
    | (with_reducible apply changes.step (mapClaims_changes ..))
    | decide

theorem resort_changes (s : State) : changes [.part .rta] s (resort s) := by
  unfold resort
  repeat' first
    | (with_reducible apply changes.refl)
    | (with_reducible assumption)
    | (with_reducible apply changes.modRta)
    | decide
    | exact .inl (by decide)
    | exact .inr (fun _ => rfl)

theorem spendBudget_changes (u : Sub) (s : State) : changes paramUse s (spendBudget u s) := by
  unfold spendBudget
  repeat' first
    | (with_reducible apply changes.refl)
    | (with_reducible assumption)
    | (with_reducible apply changes.modRta)
    | (with_reducible apply changes.step (startSearchIfDue_changes ..))
    | (with_reducible apply changes.step (acquisitionSpent_changes ..))
    | (with_reducible apply changes.ite <;> intro _)
    | decide
    | exact .inl (by decide)
    | exact .inr (fun _ => rfl)

theorem dropEmptyReplies_changes (s : State) : changes [.part .rta, .part .pgm] s (dropEmptyReplies s) := by
  unfold dropEmptyReplies
  repeat' first
    | (with_reducible apply changes.refl)
    | (with_reducible assumption)
    | (with_reducible apply changes.modRta)
    | (with_reducible apply changes.step (syncWindow_changes ..))
    | decide
    | exact .inl (by decide)
    | exact .inr (fun _ => rfl)

theorem duePart_changes (old : State) (u : Sub) (s : State) : changes paramUse s (duePart old u s) := by
  unfold duePart
  try dsimp only
  repeat' first
    | (with_reducible apply changes.refl)
    | (with_reducible assumption)
    | (with_reducible apply changes.step (modRec_changes ..))
    | (with_reducible apply changes.step (renewWatch_changes ..))
    | (with_reducible apply changes.step (renewGap_changes ..))
    | (with_reducible apply changes.step (startSearchIfDue_changes ..))
    | (with_reducible apply changes.ite <;> intro _)
    | decide

theorem dueRenewals_changes (old s : State) : changes paramUse s (dueRenewals old s) := by
  unfold dueRenewals
  try dsimp only
  repeat' first
    | (with_reducible apply changes.refl)
    | (with_reducible assumption)
    | (with_reducible apply changes.step (duePart_changes ..))
    | (with_reducible apply changes.step (renewSearch_changes ..))
    | (with_reducible apply changes.ite <;> intro _)
    | decide

theorem offerAtFrameStart_changes (old : State) (u : Sub) (s : State) :
    changes [.part .rta, .part .subA, .part .subB, .part .brt] s (offerAtFrameStart old u s) := by
  unfold offerAtFrameStart
  try dsimp only
  repeat' first
    | (with_reducible apply changes.refl)
    | (with_reducible assumption)
    | split
    | (with_reducible apply changes.step (offerStoreReady_changes ..))
    | decide

theorem frameStart_changes (s : State) :
    changes (paramUse ++ [.part .bearer, .part .brt, .part .txs, .acc, .hoExec, .connected, .state, .frozen, .runSub, .radioLoop]) s (frameStart s) := by
  unfold frameStart
  try dsimp only
  repeat' first
    | (with_reducible apply changes.refl)
    | (with_reducible assumption)
    | (with_reducible apply changes.step (checkParam_changes ..))
    | (with_reducible apply changes.step (spendBudget_changes ..))
    | (with_reducible apply changes.step (resort_changes ..))
    | (with_reducible apply changes.step (beginReacquires_changes ..))
    | (with_reducible apply changes.step (grantDecision_changes ..))
    | (with_reducible apply changes.step (dropEmptyReplies_changes ..))
    | (with_reducible apply changes.step (powerDownTest_changes ..))
    | (with_reducible apply changes.step (dueRenewals_changes ..))
    | (with_reducible apply changes.step (expiryStep_changes ..))
    | (with_reducible apply changes.step (refreshWake_changes ..))
    | (with_reducible apply changes.step (hoGuardStep_changes ..))
    | (with_reducible apply changes.step (guardStep_changes ..))
    | (with_reducible apply changes.step (offerAtFrameStart_changes ..))
    | decide

theorem failedGrant_changes (g : Grant) (s : State) : changes paramUse s (failedGrant g s) := by
  unfold failedGrant
  repeat' first
    | (with_reducible apply changes.refl)
    | (with_reducible assumption)
    | split
    | (with_reducible apply changes.step (cntRta_changes ..))
    | (with_reducible apply changes.step (missClaim_changes ..))
    | decide

theorem dropBound_changes (s : State) : changes [.part .vpb] s (dropBound s) := by
  unfold dropBound
  repeat' first
    | (with_reducible apply changes.refl)
    | (with_reducible assumption)
    | split
    | (with_reducible apply changes.modVpb)
    | (with_reducible apply changes.step (countUpDiscarded_changes ..))
    | decide
    | exact .inl (by decide)
    | exact .inr (fun _ => rfl)

theorem closeFrame_changes (s : State) : changes paramUse s (closeFrame s) := by
  unfold closeFrame
  try dsimp only
  repeat' first
    | (with_reducible apply changes.refl)
    | (with_reducible assumption)
    | split
    | (with_reducible apply changes.modFtb)
    | (with_reducible apply changes.step (post_changes ..))
    | (with_reducible apply changes.step (sendFl_changes ..))
    | (with_reducible apply changes.step (failedGrant_changes ..))
    | (with_reducible apply changes.step (dropBound_changes ..))
    | decide
    | exact .inl (by decide)
    | exact .inr (fun _ => rfl)

theorem nextSleepFrame_changes (s : State) :
    changes (paramUse ++ [.part .fn, .part .bearer, .part .brt, .part .txs, .acc, .hoExec, .connected, .state, .frozen, .runSub, .radioLoop]) s (nextSleepFrame s) := by
  unfold nextSleepFrame
  repeat' first
    | (with_reducible apply changes.refl)
    | (with_reducible assumption)
    | (with_reducible apply changes.modFtb)
    | (with_reducible apply changes.step (frameStart_changes ..))
    | (with_reducible apply changes.step (drawCurrent_changes ..))
    | decide
    | exact .inl (by decide)

theorem boundary_changes (s : State) :
    changes (paramUse ++ [.part .fn, .part .bearer, .part .brt, .part .txs, .acc, .hoExec, .connected, .state, .frozen, .runSub, .radioLoop]) s (boundary s) := by
  unfold boundary
  repeat' first
    | (with_reducible apply changes.refl)
    | (with_reducible assumption)
    | (with_reducible apply changes.step (nextSleepFrame_changes ..))
    | (with_reducible apply changes.step (closeFrame_changes ..))
    | decide

theorem watchdogExpiry_changes (s : State) :
    changes (paramUse ++ [.part .fn, .part .bearer, .part .brt, .part .txs, .acc, .hoExec, .connected, .state, .frozen, .runSub, .radioLoop]) s (watchdogExpiry s) := by
  unfold watchdogExpiry
  try dsimp only
  repeat' first
    | (with_reducible apply changes.refl)
    | (with_reducible assumption)
    | split
    | (with_reducible apply changes.modFtb)
    | (with_reducible apply changes.step (powerOff_changes ..))
    | (with_reducible apply changes.step (post_changes ..))
    | (with_reducible apply changes.step (nextSleepFrame_changes ..))
    | (with_reducible apply changes.step (refreshWake_changes ..))
    | decide
    | exact .inl (by decide)

theorem countStray_changes (s : State) : changes [.part .ftb] s (countStray s) := by
  unfold countStray
  repeat' first
    | (with_reducible apply changes.refl)
    | (with_reducible assumption)
    | (with_reducible apply changes.step (cntFtb_changes ..))
    | decide

theorem takeReady_changes (s : State) : changes (paramUse ++ [.part .brt]) s (takeReady s) := by
  unfold takeReady
  try dsimp only
  repeat' first
    | (with_reducible apply changes.refl)
    | (with_reducible assumption)
    | split
    | (with_reducible apply changes.modFtb)
    | (with_reducible apply changes.step (grantSent_changes ..))
    | (with_reducible apply changes.step (countStray_changes ..))
    | decide
    | exact .inl (by decide)
    | exact .inr (fun _ => rfl)

theorem loseJumped_changes (old carried : Nat) (c : Claim) (s : State) : changes paramUse s (loseJumped old carried c s) := by
  unfold loseJumped
  repeat' first
    | (with_reducible apply changes.refl)
    | (with_reducible apply changes.step (cntRta_changes ..))
    | (with_reducible apply changes.ite <;> intro _)
    | decide

theorem jumpOne_changes (old carried : Nat) (s : State) (c : Claim) :
    changes paramUse s (jumpOne old carried s c) := by
  unfold jumpOne
  repeat' first
    | (with_reducible apply changes.refl)
    | (with_reducible assumption)
    | (with_reducible apply changes.step (cntRta_changes ..))
    | (with_reducible apply changes.step (mapClaims_changes ..))
    | (with_reducible apply changes.step (missClaim_changes ..))
    | (with_reducible apply changes.step (loseJumped_changes ..))
    | (with_reducible apply changes.ite <;> intro _)
    | decide

theorem jumpClaims_changes (old carried : Nat) (s : State) : changes paramUse s (jumpClaims old carried s) := by
  unfold jumpClaims
  repeat' first
    | (with_reducible apply changes.refl)
    | (with_reducible assumption)
    | (with_reducible apply changes.foldl)
    | (with_reducible apply changes.step (jumpOne_changes ..))
    | (dsimp only)
    | (with_reducible apply changes.foldl_fst)
    | (intro _ _ _)
    | decide

theorem markFrame_changes (first : Bool) (expected carried : Nat) (s : State) :
    changes (paramUse ++ [.part .fn, .part .bearer, .part .brt, .part .txs, .acc, .hoExec, .connected, .state, .frozen, .runSub, .radioLoop]) s (markFrame first expected carried s) := by
  unfold markFrame
  try dsimp only
  repeat' first
    | (with_reducible apply changes.refl)
    | (with_reducible assumption)
    | (with_reducible apply changes.modFtb)
    | (with_reducible apply changes.step (cntFtb_changes ..))
    | (with_reducible apply changes.step (post_changes ..))
    | (with_reducible apply changes.step (jumpClaims_changes ..))
    | (with_reducible apply changes.step (frameStart_changes ..))
    | (with_reducible apply changes.ite <;> intro _)
    | decide
    | exact .inl (by decide)

theorem takeMark_changes (carried : Nat) (s : State) :
    changes (paramUse ++ [.part .fn, .part .bearer, .part .brt, .part .txs, .acc, .hoExec, .connected, .state, .frozen, .runSub, .radioLoop]) s (takeMark carried s) := by
  unfold takeMark
  try dsimp only
  repeat' first
    | (with_reducible apply changes.refl)
    | (with_reducible assumption)
    | split
    | (with_reducible apply changes.modFtb)
    | (with_reducible apply changes.step (markFrame_changes ..))
    | (with_reducible apply changes.step (countStray_changes ..))
    | decide
    | exact .inl (by decide)

theorem runWatchdog_changes (k : Nat) (s : State) :
    changes (paramUse ++ [.part .fn, .part .bearer, .part .brt, .part .txs, .acc, .hoExec, .connected, .state, .frozen, .runSub, .radioLoop]) s (runWatchdog k s) := by
  unfold runWatchdog
  repeat' first
    | (with_reducible apply changes.refl)
    | (with_reducible assumption)
    | split
    | (with_reducible apply changes.modFtb)
    | (with_reducible apply changes.step (watchdogExpiry_changes ..))
    | decide
    | exact .inl (by decide)

theorem sleepTick_changes (s : State) :
    changes (paramUse ++ [.part .fn, .part .bearer, .part .brt, .part .txs, .acc, .hoExec, .connected, .state, .frozen, .runSub, .radioLoop]) s (sleepTick s) := by
  unfold sleepTick
  try dsimp only
  repeat' first
    | (with_reducible apply changes.refl)
    | (with_reducible assumption)
    | (with_reducible apply changes.modFtb)
    | (with_reducible apply changes.step (runWatchdog_changes ..))
    | (with_reducible apply changes.step (boundary_changes ..))
    | (with_reducible apply changes.step (powerOn_changes ..))
    | (with_reducible apply changes.ite <;> intro _)
    | decide
    | exact .inl (by decide)

theorem idleStep_changes (s : State) :
    changes (paramUse ++ [.part .fn, .part .bearer, .part .brt, .part .txs, .acc, .hoExec, .connected, .state, .frozen, .runSub, .radioLoop]) s (idleStep s) := by
  unfold idleStep
  repeat' first
    | (with_reducible apply changes.refl)
    | (with_reducible assumption)
    | (with_reducible apply changes.step (takeNotice_changes ..))
    | (with_reducible apply changes.step (sleepTick_changes ..))
    | (with_reducible apply changes.ite <;> intro _)
    | decide

theorem frameElapses_changes (len : Nat) (s : State) :
    changes (paramUse ++ [.part .fn, .part .bearer, .part .brt, .part .txs, .acc, .hoExec, .connected, .state, .frozen, .runSub, .radioLoop]) s (frameElapses len s) := by
  unfold frameElapses
  try dsimp only
  repeat' first
    | (with_reducible apply changes.refl)
    | (with_reducible assumption)
    | (with_reducible apply changes.modFtb)
    | (with_reducible apply changes.step (powerOn_changes ..))
    | (with_reducible apply changes.step (boundary_changes ..))
    | (with_reducible apply changes.step (runWatchdog_changes ..))
    | (with_reducible apply changes.ite <;> intro _)
    | decide
    | exact .inl (by decide)

theorem pageEffect_changes (u : Option Sub) (fn : Nat) (items : List PageItem) (s : State) :
    changes (paramUse ++ [.part .identity, .part .screen]) s (pageEffect u fn items s) := by
  unfold pageEffect
  try dsimp only
  repeat' first
    | (with_reducible apply changes.refl)
    | (with_reducible assumption)
    | split
    | (with_reducible apply changes.step (cntPgm_changes ..))
    | (with_reducible apply changes.step (takePage_changes ..))
    | decide

theorem summaryFor_changes (u : Sub) (k : Key) (t : Summary) (s : State) :
    changes paramUse s (summaryFor u k t s) := by
  unfold summaryFor
  repeat' first
    | (with_reducible apply changes.refl)
    | (with_reducible assumption)
    | (with_reducible apply changes.step (setServing_changes ..))
    | (with_reducible apply changes.ite <;> intro _)
    | (with_reducible apply changes.step (checkParam_changes ..))
    | (with_reducible apply changes.step (followRhythm_changes ..))
    | decide

theorem summaryEffect_changes (k : Key) (tCell g area : Nat) (barred : Bool) (s : State) :
    changes paramUse s (summaryEffect k tCell g area barred s) := by
  unfold summaryEffect
  try dsimp only
  repeat' first
    | (with_reducible apply changes.refl)
    | (with_reducible assumption)
    | split
    | (with_reducible apply changes.step (modPgm_changes ..))
    | (with_reducible apply changes.step (cntPgm_changes ..))
    | (with_reducible apply changes.step (writeBarred_changes ..))
    | (with_reducible apply changes.step (summaryFor_changes ..))
    | decide

theorem reportEffect_changes (u : Option Sub) (cells : List RawCell) (s : State) :
    changes (paramUse ++ [.part .bearer, .part .mfu, .part .brt, .connected, .state, .radioLoop]) s (reportEffect u cells s) := by
  unfold reportEffect
  try dsimp only
  repeat' first
    | (with_reducible apply changes.refl)
    | (with_reducible assumption)
    | split
    | (with_reducible apply changes.step (modMfu_changes ..))
    | (with_reducible apply changes.step (takeReport_changes ..))
    | decide

theorem reacquireResult_changes (u : Sub) (r : AcqResult) (s : State) :
    changes (paramUse ++ [.state]) s (reacquireResult u r s) := by
  unfold reacquireResult
  repeat' first
    | (with_reducible apply changes.refl)
    | (with_reducible assumption)
    | split
    | (with_reducible apply changes.step (initialResult_changes ..))
    | (with_reducible apply changes.step (removeClaims_changes ..))
    | (with_reducible apply changes.step (reselectResult_changes ..))
    | (with_reducible apply changes.step (discardResult_changes ..))
    | decide

theorem acqEffect_changes (r : AcqResult) (s : State) : changes (paramUse ++ [.state]) s (acqEffect r s) := by
  unfold acqEffect
  repeat' first
    | (with_reducible apply changes.refl)
    | (with_reducible assumption)
    | split
    | (with_reducible apply changes.step (cntPgm_changes ..))
    | (with_reducible apply changes.step (reacquireResult_changes ..))
    | (with_reducible apply changes.step (searchOffer_changes ..))
    | (with_reducible apply changes.step (discardResult_changes ..))
    | decide

theorem syncEffect_changes (u : Option Sub) (k : Key) (status : Option SyncResult) (timing : Nat) (s : State) :
    changes (paramUse ++ [.part .bearer, .part .brt, .hoExec, .state, .frozen, .runSub, .radioLoop]) s (syncEffect u k status timing s) := by
  unfold syncEffect
  repeat' first
    | (with_reducible apply changes.refl)
    | (with_reducible assumption)
    | split
    | (with_reducible apply changes.step (takeSync_changes ..))
    | (with_reducible apply changes.step (countUnused_changes ..))
    | decide

theorem idleTextEffect_changes (u : Option Sub) (fn : Nat) (g : RawSegment) (s : State) :
    changes (paramUse ++ [.part .screen, .part .brt, .part .txs]) s (idleTextEffect u fn g s) := by
  unfold idleTextEffect
  try dsimp only
  repeat' first
    | (with_reducible apply changes.refl)
    | (with_reducible assumption)
    | split
    | (with_reducible apply changes.step (cntTxs_changes ..))
    | (with_reducible apply changes.step (takeSegment_changes ..))
    | decide

theorem linkGrantEffect_changes (u : Option Sub) (body : Octets) (s : State) :
    changes (paramUse ++ [.part .brt, .state]) s (linkGrantEffect u body s) := by
  unfold linkGrantEffect
  repeat' first
    | (with_reducible apply changes.refl)
    | (with_reducible assumption)
    | split
    | (with_reducible apply changes.step (forward_changes ..))
    | (with_reducible apply changes.step (linkGrant_changes ..))
    | decide

theorem linkReleaseEffect_changes (u : Option Sub) (body : Octets) (s : State) :
    changes (paramUse ++ [.part .bearer, .part .brt, .hoExec, .connected, .state, .frozen, .runSub, .radioLoop]) s (linkReleaseEffect u body s) := by
  unfold linkReleaseEffect
  repeat' first
    | (with_reducible apply changes.refl)
    | (with_reducible assumption)
    | split
    | (with_reducible apply changes.step (forward_changes ..))
    | (with_reducible apply changes.step (linkRelease_changes ..))
    | decide

theorem loopOrderEffect_changes (u : Option Sub) (close : Bool) (s : State) :
    changes (paramUse ++ [.part .brt, .radioLoop]) s (loopOrderEffect u close s) := by
  unfold loopOrderEffect
  try dsimp only
  repeat' first
    | (with_reducible apply changes.refl)
    | (with_reducible assumption)
    | split
    | (with_reducible apply changes.step (cntVpb_changes ..))
    | (with_reducible apply changes.step (forward_changes ..))
    | (with_reducible apply changes.step (checkParam_changes ..))
    | (with_reducible apply changes.step (closeRadioLoop_changes ..))
    | (with_reducible apply changes.step (openRadioLoop_changes ..))
    | decide

theorem routeByClass_changes (e : Bearer) (bearer seq : Nat) (payload : Octets) (text : Option RawSegment) (s : State) :
    changes (paramUse ++ [.part .screen, .part .brt, .part .txs]) s (routeByClass e bearer seq payload text s) := by
  unfold routeByClass
  repeat' first
    | (with_reducible apply changes.refl)
    | (with_reducible assumption)
    | split
    | (with_reducible apply changes.step (cntTxs_changes ..))
    | (with_reducible apply changes.step (takeDownlinkVoice_changes ..))
    | (with_reducible apply changes.step (takeSegment_changes ..))
    | (with_reducible apply changes.step (forward_changes ..))
    | decide

theorem downTrafficEffect_changes (u : Option Sub) (bearer seq : Nat) (payload : Octets) (text : Option RawSegment) (s : State) :
    changes (paramUse ++ [.part .screen, .part .bearer, .part .brt, .part .txs]) s (downTrafficEffect u bearer seq payload text s) := by
  unfold downTrafficEffect
  try dsimp only
  repeat' first
    | (with_reducible apply changes.refl)
    | (with_reducible assumption)
    | split
    | (with_reducible apply changes.step (cntBrt_changes ..))
    | (with_reducible apply changes.step (downDiscard_changes ..))
    | (with_reducible apply changes.step (checkBearer_changes ..))
    | (with_reducible apply changes.step (forward_changes ..))
    | (with_reducible apply changes.step (routeByClass_changes ..))
    | decide

theorem wakeInstantEffect_changes (s : State) : changes [.part .ftb, .part .fl] s (wakeInstantEffect s) := by
  unfold wakeInstantEffect
  repeat' first
    | (with_reducible apply changes.refl)
    | (with_reducible assumption)
    | split
    | (with_reducible apply changes.modFtb)
    | (with_reducible apply changes.step (powerOn_changes ..))
    | decide
    | exact .inl (by decide)
    | exact .inr (fun _ => rfl)

theorem markWatchdogEffect_changes (s : State) :
    changes (paramUse ++ [.part .fn, .part .bearer, .part .brt, .part .txs, .acc, .hoExec, .connected, .state, .frozen, .runSub, .radioLoop]) s (markWatchdogEffect s) := by
  unfold markWatchdogEffect
  repeat' first
    | (with_reducible apply changes.refl)
    | (with_reducible assumption)
    | (with_reducible apply changes.step (watchdogExpiry_changes ..))
    | (with_reducible apply changes.ite <;> intro _)
    | decide

theorem warmUpFailureEffect_changes (s : State) :
    changes (paramUse ++ [.part .fn, .part .bearer, .part .brt, .part .txs, .acc, .hoExec, .connected, .state, .frozen, .runSub, .radioLoop]) s (warmUpFailureEffect s) := by
  unfold warmUpFailureEffect
  repeat' first
    | (with_reducible apply changes.refl)
    | (with_reducible assumption)
    | split
    | (with_reducible apply changes.step (frameElapses_changes ..))
    | decide

theorem hoGuardExpiryEffect_changes (s : State) :
    changes (paramUse ++ [.part .bearer, .part .brt, .hoExec, .state, .frozen, .runSub, .radioLoop]) s (hoGuardExpiryEffect s) := by
  unfold hoGuardExpiryEffect
  repeat' first
    | (with_reducible apply changes.refl)
    | (with_reducible assumption)
    | split
    | (with_reducible apply changes.step (restore_changes ..))
    | decide

theorem reacquireSpentEffect_changes (u : Sub) (s : State) : changes paramUse s (reacquireSpentEffect u s) := by
  unfold reacquireSpentEffect
  repeat' first
    | (with_reducible apply changes.refl)
    | (with_reducible assumption)
    | (with_reducible apply changes.step (refreshWake_changes ..))
    | (with_reducible apply changes.step (spendBudget_changes ..))
    | (with_reducible apply changes.ite <;> intro _)
    | decide

theorem groupExpiryEffect_changes (i : Nat) (s : State) :
    changes (eventUse ++ [.part .txs]) s (groupExpiryEffect i s) := by
  unfold groupExpiryEffect
  repeat' first
    | (with_reducible apply changes.refl)
    | (with_reducible assumption)
    | split
    | (with_reducible apply changes.step (expireGroup_changes ..))
    | decide

end Sys2Proof.Machine
end

