-- ==== Sys2Proof/Laws/Management.lean ====
section
/-! SUPPORT. What each operation of Machine/AppLink.lean, Management.lean and Reset.lean can change at most. -/

namespace Sys2Proof.Machine

-- One lemma at a time: elaborated together they would each take a thread.
set_option Elab.async false

theorem linkUp_changes (s : State) : changes [.part .brt, .part .alc, .link] s (linkUp s) := by
  unfold linkUp
  repeat' first
    | (with_reducible apply changes.refl)
    | (with_reducible assumption)
    | (with_reducible apply changes.modAlc)
    | (with_reducible apply changes.step (modBrt_changes ..))
    | (with_reducible apply changes.step (setWake_changes ..))
    | decide
    | exact .inl (by decide)

theorem linkDown_changes (s : State) : changes (eventUse ++ [.part .brt, .link]) s (linkDown s) := by
  unfold linkDown
  try dsimp only
  repeat' first
    | (with_reducible apply changes.refl)
    | (with_reducible assumption)
    | (with_reducible apply changes.foldl)
    | (with_reducible apply changes.modAlc)
    | (with_reducible apply changes.step (setWake_changes ..))
    | (with_reducible apply changes.step (loseForward_changes ..))
    | (dsimp only)
    | (with_reducible apply changes.foldl_fst)
    | (intro _ _ _)
    | decide
    | exact .inl (by decide)

theorem linkReadyEffect_changes (asserted : Bool) (s : State) :
    changes (eventUse ++ [.part .brt, .link]) s (linkReadyEffect asserted s) := by
  unfold linkReadyEffect
  try dsimp only
  repeat' first
    | (with_reducible apply changes.refl)
    | (with_reducible assumption)
    | split
    | (with_reducible apply changes.modAlc)
    | (with_reducible apply changes.step (linkUp_changes ..))
    | (with_reducible apply changes.step (linkDown_changes ..))
    | decide
    | exact .inl (by decide)

theorem rejectedEffect_changes (l : Octets) (s : State) : changes [.part .alc] s (rejectedEffect l s) := by
  unfold rejectedEffect
  repeat' first
    | (with_reducible apply changes.refl)
    | (with_reducible assumption)
    | (with_reducible apply changes.step (cntAlc_changes ..))
    | (with_reducible apply changes.ite <;> intro _)
    | decide

theorem transmitDone_changes (s : State) : changes [.part .alc, .part .al] s (transmitDone s) := by
  unfold transmitDone
  try dsimp only
  repeat' first
    | (with_reducible apply changes.refl)
    | (with_reducible assumption)
    | split
    | (with_reducible apply changes.modAlc)
    | (with_reducible apply changes.modOut)
    | (with_reducible apply changes.step (setWake_changes ..))
    | decide
    | exact .inl (by decide)
    | exact .inr (fun _ => ⟨rfl, rfl⟩)
    | exact .inr (fun _ => rfl)

theorem upTrafficEffect_changes (u : Option Sub) (bearer : Nat) (payload : Octets) (s : State) :
    changes (eventUse ++ [.part .bearer, .part .brt, .part .vpb]) s (upTrafficEffect u bearer payload s) := by
  unfold upTrafficEffect
  try dsimp only
  repeat' first
    | (with_reducible apply changes.refl)
    | (with_reducible assumption)
    | split
    | (with_reducible apply changes.step (cntBrt_changes ..))
    | (with_reducible apply changes.step (upDiscard_changes ..))
    | (with_reducible apply changes.step (checkBearer_changes ..))
    | (with_reducible apply changes.step (joinQueue_changes ..))
    | decide

theorem linkRequestEffect_changes (u : Option Sub) (body : Octets) (s : State) :
    changes (paramUse ++ [.part .brt, .connected, .state]) s (linkRequestEffect u body s) := by
  unfold linkRequestEffect
  repeat' first
    | (with_reducible apply changes.refl)
    | (with_reducible assumption)
    | split
    | (with_reducible apply changes.step (upDiscard_changes ..))
    | (with_reducible apply changes.step (linkRequest_changes ..))
    | decide

theorem upControlEffect_changes (u : Option Sub) (code : Nat) (body : Octets) (s : State) :
    changes [.part .brt] s (upControlEffect u code body s) := by
  unfold upControlEffect
  repeat' first
    | (with_reducible apply changes.refl)
    | (with_reducible assumption)
    | split
    | (with_reducible apply changes.step (upDiscard_changes ..))
    | (with_reducible apply changes.step (joinQueue_changes ..))
    | decide

theorem refuseWrite_changes (tag : Nat) (st : Status) (s : State) :
    changes [.part .alc] s (refuseWrite tag st s) := by
  unfold refuseWrite
  repeat' first
    | (with_reducible apply changes.refl)
    | (with_reducible assumption)
    | (with_reducible apply changes.step (answer_changes ..))
    | decide

theorem storeGlobal_changes (e : GlobalEntry) (s : State) :
    changes [.part .ftb, .part .global, .part .vpb, .part .fl] s (storeGlobal e s) := by
  unfold storeGlobal
  try dsimp only
  repeat' first
    | (with_reducible apply changes.refl)
    | (with_reducible assumption)
    | (with_reducible apply changes.modTab)
    | (with_reducible apply changes.step (setWakeInstant_changes ..))
    | (with_reducible apply changes.step (restartOcc_changes ..))
    | (with_reducible apply changes.ite <;> intro _)
    | decide
    | exact .inl (by decide)
    | exact .inr (fun _ => rfl)

theorem writeGlobal_changes (tag first : Nat) (l : List GlobalWrite) (s : State) :
    changes [.part .ftb, .part .global, .part .vpb, .part .alc, .part .fl] s (writeGlobal tag first l s) := by
  unfold writeGlobal
  repeat' first
    | (with_reducible apply changes.refl)
    | (with_reducible assumption)
    | split
    | (with_reducible apply changes.step (refuseWrite_changes ..))
    | (with_reducible apply changes.step (answer_changes ..))
    | (with_reducible apply changes.step (storeGlobal_changes ..))
    | decide

theorem storeParam_changes (i : Nat) (w : ParamWrite) (s : State) : changes paramUse s (storeParam i w s) := by
  unfold storeParam
  repeat' first
    | (with_reducible apply changes.refl)
    | (with_reducible assumption)
    | (with_reducible apply changes.step (paramChanged_changes ..))
    | (with_reducible apply changes.step (setParam_changes ..))
    | decide

theorem writeParam_changes (tag first : Nat) (l : List ParamWrite) (s : State) :
    changes paramUse s (writeParam tag first l s) := by
  unfold writeParam
  repeat' first
    | (with_reducible apply changes.refl)
    | (with_reducible assumption)
    | (with_reducible apply changes.writeFrom)
    | split
    | (with_reducible apply changes.step (refuseWrite_changes ..))
    | (with_reducible apply changes.step (answer_changes ..))
    | (with_reducible apply changes.step (storeParam_changes ..))
    | (dsimp only)
    | (intro _ _ _ _)
    | decide

theorem storeIdentity_changes (i : Nat) (e : IdentityEntry) (s : State) :
    changes [.part .identity] s (storeIdentity i e s) := by
  unfold storeIdentity
  repeat' first
    | (with_reducible apply changes.refl)
    | (with_reducible assumption)
    | (with_reducible apply changes.step (setIdentity_changes ..))
    | decide

theorem writeIdentity_changes (tag first : Nat) (l : List IdentityWrite) (s : State) :
    changes (listUse ++ [.part .subA, .part .subB, .part .identity]) s (writeIdentity tag first l s) := by
  unfold writeIdentity
  try dsimp only
  repeat' first
    | (with_reducible apply changes.refl)
    | (with_reducible assumption)
    | (with_reducible apply changes.writeFrom)
    | split
    | (with_reducible apply changes.step (refuseWrite_changes ..))
    | (with_reducible apply changes.step (storeIdentity_changes ..))
    | (with_reducible apply changes.step (rekey_changes ..))
    | (with_reducible apply changes.step (answer_changes ..))
    | (dsimp only)
    | (intro _ _ _ _)
    | decide

theorem storeScreen_changes (i : Nat) (w : BitVec 16) (s : State) :
    changes [.part .screen] s (storeScreen i w s) := by
  unfold storeScreen
  repeat' first
    | (with_reducible apply changes.refl)
    | (with_reducible assumption)
    | (with_reducible apply changes.step (setScreen_changes ..))
    | decide

theorem writeScreen_changes (tag first : Nat) (l : List (BitVec 16)) (s : State) :
    changes [.part .screen, .part .alc] s (writeScreen tag first l s) := by
  unfold writeScreen
  repeat' first
    | (with_reducible apply changes.refl)
    | (with_reducible assumption)
    | (with_reducible apply changes.writeFrom)
    | split
    | (with_reducible apply changes.step (refuseWrite_changes ..))
    | (with_reducible apply changes.step (answer_changes ..))
    | (with_reducible apply changes.step (storeScreen_changes ..))
    | (dsimp only)
    | (intro _ _ _ _)
    | decide

theorem checkBearers_changes (p : Nat → Bool) (s : State) :
    changes (eventUse ++ [.part .bearer, .part .vpb]) s (checkBearers p s) := by
  unfold checkBearers
  try dsimp only
  repeat' first
    | (with_reducible apply changes.refl)
    | (with_reducible assumption)
    | split
    | (with_reducible apply changes.foldl)
    | (intro _ _ _)
    | (with_reducible apply changes.step (checkBearer_changes ..))
    | decide

theorem storeBearer_changes (i : Nat) (e : Bearer) (s : State) : changes [.part .bearer] s (storeBearer i e s) := by
  unfold storeBearer
  repeat' first
    | (with_reducible apply changes.refl)
    | (with_reducible assumption)
    | (with_reducible apply changes.step (setBearer_changes ..))
    | decide

theorem followVoice_changes (s : State) : changes globalUse s (followVoice s) := by
  unfold followVoice
  repeat' first
    | (with_reducible apply changes.refl)
    | (with_reducible assumption)
    | split
    | (with_reducible apply changes.step (endPlayout_changes ..))
    | (with_reducible apply changes.step (activatePlayout_changes ..))
    | decide

theorem writeBearers_changes (tag first : Nat) (l : List Bearer) (s : State) :
    changes (globalUse ++ [.part .bearer]) s (writeBearers tag first l s) := by
  unfold writeBearers
  try dsimp only
  repeat' first
    | (with_reducible apply changes.refl)
    | (with_reducible assumption)
    | (with_reducible apply changes.writeFrom)
    | (with_reducible apply changes.step (storeBearer_changes ..))
    | (with_reducible apply changes.step (refuseWrite_changes ..))
    | (with_reducible apply changes.step (answer_changes ..))
    | (with_reducible apply changes.step (followVoice_changes ..))
    | (with_reducible apply changes.ite <;> intro _)
    | (dsimp only)
    | (intro _ _ _ _)
    | (with_reducible apply changes.step (checkBearers_changes ..))
    | decide

theorem testBearers_changes (tag first : Nat) (l : List Bearer) (s : State) :
    changes (globalUse ++ [.part .bearer]) s (testBearers tag first l s) := by
  unfold testBearers
  try dsimp only
  repeat' first
    | (with_reducible apply changes.refl)
    | (with_reducible assumption)
    | split
    | (with_reducible apply changes.step (refuseWrite_changes ..))
    | (with_reducible apply changes.step (writeBearers_changes ..))
    | decide

theorem writeBearer_changes (tag first : Nat) (l : List BearerWrite) (s : State) :
    changes (globalUse ++ [.part .bearer]) s (writeBearer tag first l s) := by
  unfold writeBearer
  try dsimp only
  repeat' first
    | (with_reducible apply changes.refl)
    | (with_reducible assumption)
    | split
    | (with_reducible apply changes.step (refuseWrite_changes ..))
    | (with_reducible apply changes.step (testBearers_changes ..))
    | (with_reducible apply changes.step (checkBearers_changes ..))
    | decide

theorem storeClass_changes (i : Nat) (c : EventClass) (s : State) :
    changes [.part .eventClass] s (storeClass i c s) := by
  unfold storeClass
  repeat' first
    | (with_reducible apply changes.refl)
    | (with_reducible assumption)
    | (with_reducible apply changes.step (setClassEntry_changes ..))
    | decide

theorem writeEventClass_changes (tag first : Nat) (l : List (Option EventClass)) (s : State) :
    changes [.part .eventClass, .part .alc] s (writeEventClass tag first l s) := by
  unfold writeEventClass
  repeat' first
    | (with_reducible apply changes.refl)
    | (with_reducible assumption)
    | (with_reducible apply changes.writeFrom)
    | split
    | (with_reducible apply changes.step (refuseWrite_changes ..))
    | (with_reducible apply changes.step (answer_changes ..))
    | (with_reducible apply changes.step (storeClass_changes ..))
    | (dsimp only)
    | (intro _ _ _ _)
    | decide

theorem checkClass_changes (i : Nat) (s : State) : changes eventUse s (checkClass i s) := by
  unfold checkClass
  try dsimp only
  repeat' first
    | (with_reducible apply changes.refl)
    | (with_reducible assumption)
    | split
    | (with_reducible apply changes.step (setClassEntry_changes ..))
    | (with_reducible apply changes.step (useEntry_changes (hp := setClassEntry_changes _) ..))
    | decide

theorem readEntry_changes (t : TableId) (i : Nat) (s : State) :
    changes (paramUse ++ [.part .identity, .part .screen, .part .bearer]) s (readEntry t i s).1 := by
  unfold readEntry
  try dsimp only
  repeat' first
    | (with_reducible apply changes.refl)
    | (with_reducible assumption)
    | split
    | (dsimp only)
    | (with_reducible apply changes.step (useGlobal_changes ..))
    | (with_reducible apply changes.step (checkParam_changes ..))
    | (with_reducible apply changes.step (checkIdentity_changes ..))
    | (with_reducible apply changes.step (checkScreen_changes ..))
    | (with_reducible apply changes.step (checkBearer_changes ..))
    | (with_reducible apply changes.step (checkClass_changes ..))
    | (with_reducible apply changes.step (useCell_changes ..))
    | decide

theorem readAll_changes (t : TableId) (l : List Nat) (s : State) : changes (paramUse ++ [.part .identity, .part .screen, .part .bearer]) s (readAll t l s).1 := by
  induction l generalizing s with
  | nil => exact changes.refl _ _
  | cons i l ih => exact ((readEntry_changes t i s).mono (by decide)).trans (ih _)

theorem readTable_changes (tag : Nat) (t : TableId) (first n : Nat) (s : State) :
    changes (paramUse ++ [.part .identity, .part .screen, .part .bearer]) s (readTable tag t first n s) := by
  unfold readTable
  repeat' first
    | (with_reducible apply changes.refl)
    | (with_reducible assumption)
    | split
    | (with_reducible apply changes.modAlc)
    | (with_reducible apply changes.step (readAll_changes ..))
    | (with_reducible apply changes.step (answer_changes ..))
    | (dsimp only)
    | (with_reducible apply changes.of_fst; (focus assumption))
    | decide
    | exact .inl (by decide)
    | exact .inr (fun _ => ⟨rfl, rfl⟩)

theorem tableReadEffect_changes (tag table : Nat) (first : Option Nat) (count : Nat) (s : State) :
    changes (paramUse ++ [.part .identity, .part .screen, .part .bearer]) s (tableReadEffect tag table first count s) := by
  unfold tableReadEffect
  repeat' first
    | (with_reducible apply changes.refl)
    | (with_reducible assumption)
    | split
    | (with_reducible apply changes.step (answer_changes ..))
    | (with_reducible apply changes.step (readTable_changes ..))
    | decide

theorem cellPutEffect_changes (tag : Nat) (k : Key) (barred : Bool) (offset : Int) (s : State) :
    changes paramUse s (cellPutEffect tag k barred offset s) := by
  unfold cellPutEffect
  try dsimp only
  repeat' first
    | (with_reducible apply changes.refl)
    | (with_reducible assumption)
    | split
    | (with_reducible apply changes.step (answer_changes ..))
    | (with_reducible apply changes.step (lookup_changes ..))
    | (with_reducible apply changes.step (modCell_changes ..))
    | (with_reducible apply changes.step (allocate_changes ..))
    | (dsimp only)
    | (with_reducible apply changes.of_fst; (focus assumption))
    | decide

theorem cellDropEffect_changes (tag : Nat) (k : Key) (s : State) : changes paramUse s (cellDropEffect tag k s) := by
  unfold cellDropEffect
  repeat' first
    | (with_reducible apply changes.refl)
    | (with_reducible assumption)
    | split
    | (with_reducible apply changes.step (answer_changes ..))
    | (with_reducible apply changes.step (lookup_changes ..))
    | (with_reducible apply changes.step (setCell_changes ..))
    | (dsimp only)
    | (with_reducible apply changes.of_fst; (focus assumption))
    | decide

theorem attach_changes (u : Sub) (initial : Option Key) (s : State) :
    changes (paramUse ++ [.state]) s (attach u initial s) := by
  unfold attach
  repeat' first
    | (with_reducible apply changes.refl)
    | (with_reducible assumption)
    | split
    | (with_reducible apply changes.modSub)
    | (with_reducible apply changes.step (insertClaim_changes ..))
    | (with_reducible apply changes.step (startSearch_changes ..))
    | decide
    | exact .inl (by decide)

theorem subAttachEffect_changes (tag : Nat) (u : Option Sub) (initial : Option Key) (s : State) :
    changes (paramUse ++ [.state]) s (subAttachEffect tag u initial s) := by
  unfold subAttachEffect
  repeat' first
    | (with_reducible apply changes.refl)
    | (with_reducible assumption)
    | split
    | (with_reducible apply changes.step (answer_changes ..))
    | (with_reducible apply changes.step (attach_changes ..))
    | decide

theorem subDetachEffect_changes (tag : Nat) (u : Option Sub) (s : State) :
    changes (paramUse ++ [.part .bearer, .part .brt, .part .txs, .connected, .state, .radioLoop]) s (subDetachEffect tag u s) := by
  unfold subDetachEffect
  repeat' first
    | (with_reducible apply changes.refl)
    | (with_reducible assumption)
    | split
    | (with_reducible apply changes.step (answer_changes ..))
    | (with_reducible apply changes.step (detach_changes ..))
    | decide

theorem textTakeEffect_changes (tag : Nat) (s : State) :
    changes [.part .rta, .part .subA, .part .subB, .part .brt, .part .txs, .part .alc] s (textTakeEffect tag s) := by
  unfold textTakeEffect
  try dsimp only
  repeat' first
    | (with_reducible apply changes.refl)
    | (with_reducible assumption)
    | split
    | (with_reducible apply changes.step (modTxs_changes ..))
    | (with_reducible apply changes.step (cntTxs_changes ..))
    | (with_reducible apply changes.step (answer_changes ..))
    | (with_reducible apply changes.step (removeGroup_changes ..))
    | (with_reducible apply changes.step (watermarkTest_changes ..))
    | decide

theorem clearCounters_changes (s : State) :
    changes [.part .ftb, .part .rta, .part .ctb, .part .mfu, .part .pgm, .part .hxu, .part .brt, .part .txs, .part .vpb, .part .alc, .part .tmc] s (clearCounters s) := by
  unfold clearCounters
  try dsimp only
  repeat' first
    | (with_reducible apply changes.refl)
    | (with_reducible assumption)
    | (with_reducible apply changes.step (modMfu_changes ..))
    | (with_reducible apply changes.step (modTmc_changes ..))
    | (with_reducible apply changes.step (cntAlc_changes ..))
    | (with_reducible apply changes.step (cntBrt_changes ..))
    | (with_reducible apply changes.step (cntCtb_changes ..))
    | (with_reducible apply changes.step (cntFtb_changes ..))
    | (with_reducible apply changes.step (cntHxu_changes ..))
    | (with_reducible apply changes.step (cntPgm_changes ..))
    | (with_reducible apply changes.step (cntRta_changes ..))
    | (with_reducible apply changes.step (cntTxs_changes ..))
    | (with_reducible apply changes.step (cntVpb_changes ..))
    | decide

theorem statsTakeEffect_changes (tag clear : Nat) (s : State) :
    changes (listUse ++ [.part .ctb, .part .mfu, .part .hxu, .part .brt, .part .txs]) s (statsTakeEffect tag clear s) := by
  unfold statsTakeEffect
  try dsimp only
  repeat' first
    | (with_reducible apply changes.refl)
    | (with_reducible assumption)
    | (with_reducible apply changes.step (answer_changes ..))
    | (with_reducible apply changes.step (useGlobal_changes ..))
    | (with_reducible apply changes.step (clearCounters_changes ..))
    | (with_reducible apply changes.step (restartOcc_changes ..))
    | (with_reducible apply changes.ite <;> intro _)
    | decide

theorem voiceLoopEffect_changes (tag : Nat) (setting : Option Bool) (s : State) :
    changes (eventUse ++ [.part .vpb]) s (voiceLoopEffect tag setting s) := by
  unfold voiceLoopEffect
  repeat' first
    | (with_reducible apply changes.refl)
    | (with_reducible assumption)
    | split
    | (with_reducible apply changes.step (answer_changes ..))
    | (with_reducible apply changes.step (setCodecLoop_changes ..))
    | decide

theorem spoil_changes (t : TableId) (i : Nat) (c : Check) (s : State) :
    changes [.part .global, .part .param, .part .identity, .part .screen, .part .bearer, .part .eventClass, .part .ctb] s (spoil t i c s) := by
  unfold spoil
  repeat' first
    | (with_reducible apply changes.refl)
    | (with_reducible assumption)
    | split
    | (with_reducible apply changes.modTab)
    | (with_reducible apply changes.step (setParam_changes ..))
    | (with_reducible apply changes.step (setIdentity_changes ..))
    | (with_reducible apply changes.step (setScreen_changes ..))
    | (with_reducible apply changes.step (setBearer_changes ..))
    | (with_reducible apply changes.step (setClassEntry_changes ..))
    | (with_reducible apply changes.step (setCell_changes ..))
    | decide
    | exact .inl (by decide)

theorem checkInjectEffect_changes (tag table i positions : Nat) (s : State) :
    changes [.part .global, .part .param, .part .identity, .part .screen, .part .bearer, .part .eventClass, .part .ctb, .part .alc] s (checkInjectEffect tag table i positions s) := by
  unfold checkInjectEffect
  repeat' first
    | (with_reducible apply changes.refl)
    | (with_reducible assumption)
    | split
    | (with_reducible apply changes.step (cntAlc_changes ..))
    | (with_reducible apply changes.step (answer_changes ..))
    | (with_reducible apply changes.step (spoil_changes ..))
    | decide

theorem malformedEffect_changes (tag code : Nat) (s : State) :
    changes [.part .alc] s (malformedEffect tag code s) := by
  unfold malformedEffect
  repeat' first
    | (with_reducible apply changes.refl)
    | (with_reducible assumption)
    | (with_reducible apply changes.step (cntAlc_changes ..))
    | (with_reducible apply changes.step (addResponse_changes ..))
    | decide

theorem warmTimebase_changes (s : State) : changes (globalUse ++ [.acc]) s (warmTimebase s) := by
  unfold warmTimebase
  try dsimp only
  repeat' first
    | (with_reducible apply changes.refl)
    | (with_reducible assumption)
    | split
    | (with_reducible apply changes.modFtb)
    | (with_reducible apply changes.step (powerDownOn_changes ..))
    | (with_reducible apply changes.step (powerOff_changes ..))
    | decide
    | exact .inl (by decide)
    | exact .inr (fun _ => rfl)

theorem warmArbiter_changes (s : State) : changes [.part .rta, .hoExec, .connected] s (warmArbiter s) := by
  unfold warmArbiter
  repeat' first
    | (with_reducible apply changes.refl)
    | (with_reducible assumption)
    | (with_reducible apply changes.modRta)
    | decide
    | exact .inl (by decide)

theorem warmRecord_changes (u : Sub) (s : State) :
    changes (eventUse ++ [.part .subA, .part .subB, .part .identity, .state]) s (warmRecord u s) := by
  unfold warmRecord
  repeat' first
    | (with_reducible apply changes.refl)
    | (with_reducible assumption)
    | (with_reducible apply changes.modSub)
    | (with_reducible apply changes.step (readForKey_changes ..))
    | decide
    | exact .inl (by decide)

theorem warmCells_changes (s : State) : changes [.part .ctb, .frozen] s (warmCells s) := by
  unfold warmCells
  repeat' first
    | (with_reducible apply changes.refl)
    | (with_reducible assumption)
    | (with_reducible apply changes.modCtb)
    | decide
    | exact .inl (by decide)

theorem warmBlocks_changes (s : State) :
    changes [.part .pgm, .part .hxu, .part .brt, .part .vpb, .runSub, .radioLoop] s (warmBlocks s) := by
  unfold warmBlocks
  try dsimp only
  repeat' first
    | (with_reducible apply changes.refl)
    | (with_reducible assumption)
    | (with_reducible apply changes.modHxu)
    | (with_reducible apply changes.modVpb)
    | (with_reducible apply changes.step (modPgm_changes ..))
    | (with_reducible apply changes.step (modBrt_changes ..))
    | decide
    | exact .inl (by decide)

theorem warmLink_changes (s : State) : changes [.part .alc] s (warmLink s) := by
  unfold warmLink
  repeat' first
    | (with_reducible apply changes.refl)
    | (with_reducible assumption)
    | split
    | (with_reducible apply changes.modAlc)
    | decide
    | exact .inl (by decide)
    | exact .inr (fun _ => ⟨rfl, rfl⟩)

theorem warmAll_changes (s : State) :
    changes (listUse ++ [.part .subA, .part .subB, .part .identity, .part .bearer, .part .ctb, .part .mfu, .part .hxu, .part .brt, .part .txs, .acc, .hoExec, .connected, .state, .frozen, .runSub, .radioLoop]) s (warmAll s) := by
  unfold warmAll
  try dsimp only
  repeat' first
    | (with_reducible apply changes.refl)
    | (with_reducible assumption)
    | (with_reducible apply changes.step (warmArbiter_changes ..))
    | (with_reducible apply changes.step (warmTimebase_changes ..))
    | (with_reducible apply changes.step (idleBearers_changes ..))
    | (with_reducible apply changes.step (warmRecord_changes ..))
    | (with_reducible apply changes.step (warmBlocks_changes ..))
    | (with_reducible apply changes.step (warmCells_changes ..))
    | (with_reducible apply changes.step (discardOpen_changes ..))
    | (with_reducible apply changes.step (clearCounters_changes ..))
    | (with_reducible apply changes.step (warmLink_changes ..))
    | decide

theorem warmEffect_changes (tag : Nat) (s : State) :
    changes (listUse ++ [.part .subA, .part .subB, .part .identity, .part .bearer, .part .ctb, .part .mfu, .part .hxu, .part .brt, .part .txs, .acc, .hoExec, .connected, .state, .frozen, .runSub, .radioLoop]) s (warmEffect tag s) := by
  unfold warmEffect
  repeat' first
    | (with_reducible apply changes.refl)
    | (with_reducible assumption)
    | (with_reducible apply changes.step (setWake_changes ..))
    | (with_reducible apply changes.step (post_changes ..))
    | (with_reducible apply changes.step (warmAll_changes ..))
    | (with_reducible apply changes.step (answer_changes ..))
    | decide

end Sys2Proof.Machine
end

