-- ==== Sys2Proof/WellFormed.lean ====
section
/-! DEFINITION. What the octets of a frame or request can carry (11.6): a command that no frame, request or pin can give
is not well formed. Values that can arrive and that a rule refuses (a key out of range, a bad digit) are well formed: the
meaning of the command refuses them as the rule says. -/

namespace Sys2Proof

/-- A field of one octet. -/
def octetField (n : Nat) : Bool := n < 256

/-- A field of two octets. -/
def pairField (n : Nat) : Bool := n < 65536

/-- A frame number field: 0..1023 (11.6, FL frame). -/
def fnField (n : Nat) : Bool := n < 1024

/-- A digit of a packed digit string is half an octet, and 15 marks an unused half (11.6): 0..14 can stand in it. -/
def digitField (d : Nat) : Bool := d < 15

def Key.fieldsOk (k : Key) : Bool := pairField k.channel && pairField k.code

/-- PAGE item fields (11.6): eight octets of digits hold 16 digits; a TEMPORARY number has four octets; the reference
is 0..15 (R99). -/
def PageItem.fieldsOk (i : PageItem) : Bool :=
  decide (i.digits.length ≤ 16) && i.digits.all digitField && decide (i.number < 4294967296) && octetField i.base &&
    octetField i.span && octetField i.follows && decide (i.ref < 16)

def RawCell.fieldsOk (c : RawCell) : Bool := c.key.fieldsOk && octetField c.level

def RawSegment.fieldsOk (g : RawSegment) : Bool :=
  g.sender.all digitField && octetField g.reference && octetField g.index && octetField g.total && octetField g.service

def AcqResult.fieldsOk (r : AcqResult) : Bool := r.key.fieldsOk && pairField r.tCell && octetField r.g && pairField r.area

def IdentityWrite.fieldsOk (w : IdentityWrite) : Bool := w.digits.all digitField && decide (w.number < 4294967296)

/-- A TABLE_WRITE carries one or more entries from a first index of one octet, 255 being NEXT (R177, 11.6). -/
def writeFieldsOk {α : Type} (tag first : Nat) (entries : List α) : Bool :=
  octetField tag && decide (first < 255) && !entries.isEmpty

/-- A command that its frame, request or event can give. -/
def Instr.wellFormed : Instr → Bool
  | .powerOnReset => true
  | .linkReadyChange _ => true
  | .sleepBoundary => true
  | .frameMark fn => fnField fn
  | .ready => true
  | .wakeInstant => true
  | .markWatchdogExpiry => true
  | .warmUpFailure => true
  | .connectGuardExpiry _ => true
  | .handoverGuardExpiry => true
  | .reacquireBudgetSpent _ => true
  | .groupExpiry record => decide (record < 12)
  | .targetDamageNotice => true
  | .codecPeriod _ => true
  | .page _ fn items => fnField fn && decide (items.length < 256) && items.all PageItem.fieldsOk
  | .summary key tCell g area _ => key.fieldsOk && pairField tCell && octetField g && pairField area
  | .measReport _ fn cells => fnField fn && decide (cells.length < 256) && cells.all RawCell.fieldsOk
  | .acqResult r => r.fieldsOk
  | .syncStatus _ key _ timing => key.fieldsOk && octetField timing
  | .idleText _ fn seg => fnField fn && seg.fieldsOk
  | .linkGrant _ _ => true
  | .linkRelease _ _ => true
  | .handoverOrder _ target guard => target.fieldsOk && octetField guard
  | .loopOrder _ _ => true
  | .downlinkControlOther _ code _ => octetField code && !([1, 2, 3, 4].contains code)
  | .downlinkTraffic _ bearer seq _ text => octetField bearer && octetField seq && text.all RawSegment.fieldsOk
  | .alFrameRejected octets => !octets.isEmpty
  | .uplinkTraffic _ bearer _ => octetField bearer
  | .linkRequest _ _ => true
  | .uplinkControlOther _ code _ => octetField code && code != 0
  | .tableWriteGlobal tag first entries => writeFieldsOk tag first entries
  | .tableWriteParam tag first entries => writeFieldsOk tag first entries
  | .tableWriteIdentity tag first entries => writeFieldsOk tag first entries && entries.all IdentityWrite.fieldsOk
  | .tableWriteScreen tag first words => writeFieldsOk tag first words
  | .tableWriteBearer tag first entries => writeFieldsOk tag first entries
  | .tableWriteEventClass tag first classes => writeFieldsOk tag first classes
  | .tableRead tag table first count => octetField tag && octetField table && first.all (fun i => decide (i < 255)) && octetField count
  | .cellPut tag key _ _ => octetField tag && key.fieldsOk
  | .cellDrop tag key => octetField tag && key.fieldsOk
  | .subAttach tag _ initial => octetField tag && initial.all Key.fieldsOk
  | .subDetach tag _ => octetField tag
  | .textTake tag => octetField tag
  | .statsTake tag clear => octetField tag && octetField clear
  | .voiceLoop tag _ => octetField tag
  | .checkInject tag table index positions => octetField tag && octetField table && octetField index && octetField positions
  | .warmReset tag => octetField tag
  | .malformedRequest tag code => octetField tag && octetField code
  | .alTransmitDone => true
  | .tableWriteNoSuchTable tag table => octetField tag && octetField table && decide (6 ≤ table)

end Sys2Proof
end

