-- ==== Sys2Proof/Laws/PerInstr.lean ====
section
/-! SUPPORT. The family Operands: what well-formedness says of a command's own fields, one lemma for each constructor. -/

set_option linter.unusedSimpArgs false

namespace Sys2Proof.Laws.Operands

-- One lemma at a time: elaborated together they would each take a thread.
set_option Elab.async false

/-- The tag of a management request (R176). -/
def tagOf : Instr → Option Nat
  | .powerOnReset => none
  | .linkReadyChange _ => none
  | .sleepBoundary => none
  | .frameMark _ => none
  | .ready => none
  | .wakeInstant => none
  | .markWatchdogExpiry => none
  | .warmUpFailure => none
  | .connectGuardExpiry _ => none
  | .handoverGuardExpiry => none
  | .reacquireBudgetSpent _ => none
  | .groupExpiry _ => none
  | .targetDamageNotice => none
  | .codecPeriod _ => none
  | .page _ _ _ => none
  | .summary _ _ _ _ _ => none
  | .measReport _ _ _ => none
  | .acqResult _ => none
  | .syncStatus _ _ _ _ => none
  | .idleText _ _ _ => none
  | .linkGrant _ _ => none
  | .linkRelease _ _ => none
  | .handoverOrder _ _ _ => none
  | .loopOrder _ _ => none
  | .downlinkControlOther _ _ _ => none
  | .downlinkTraffic _ _ _ _ _ => none
  | .alFrameRejected _ => none
  | .uplinkTraffic _ _ _ => none
  | .linkRequest _ _ => none
  | .uplinkControlOther _ _ _ => none
  | .tableWriteGlobal tag _ _ => some tag
  | .tableWriteParam tag _ _ => some tag
  | .tableWriteIdentity tag _ _ => some tag
  | .tableWriteScreen tag _ _ => some tag
  | .tableWriteBearer tag _ _ => some tag
  | .tableWriteEventClass tag _ _ => some tag
  | .tableRead tag _ _ _ => some tag
  | .cellPut tag _ _ _ => some tag
  | .cellDrop tag _ => some tag
  | .subAttach tag _ _ => some tag
  | .subDetach tag _ => some tag
  | .textTake tag => some tag
  | .statsTake tag _ => some tag
  | .voiceLoop tag _ => some tag
  | .checkInject tag _ _ _ => some tag
  | .warmReset tag => some tag
  | .malformedRequest tag _ => some tag
  | .alTransmitDone => none
  | .tableWriteNoSuchTable tag _ => some tag

/-- The frame number that a frame carries (11.6). -/
def fnOf : Instr → Option Nat
  | .powerOnReset => none
  | .linkReadyChange _ => none
  | .sleepBoundary => none
  | .frameMark fn => some fn
  | .ready => none
  | .wakeInstant => none
  | .markWatchdogExpiry => none
  | .warmUpFailure => none
  | .connectGuardExpiry _ => none
  | .handoverGuardExpiry => none
  | .reacquireBudgetSpent _ => none
  | .groupExpiry _ => none
  | .targetDamageNotice => none
  | .codecPeriod _ => none
  | .page _ fn _ => some fn
  | .summary _ _ _ _ _ => none
  | .measReport _ fn _ => some fn
  | .acqResult _ => none
  | .syncStatus _ _ _ _ => none
  | .idleText _ fn _ => some fn
  | .linkGrant _ _ => none
  | .linkRelease _ _ => none
  | .handoverOrder _ _ _ => none
  | .loopOrder _ _ => none
  | .downlinkControlOther _ _ _ => none
  | .downlinkTraffic _ _ _ _ _ => none
  | .alFrameRejected _ => none
  | .uplinkTraffic _ _ _ => none
  | .linkRequest _ _ => none
  | .uplinkControlOther _ _ _ => none
  | .tableWriteGlobal _ _ _ => none
  | .tableWriteParam _ _ _ => none
  | .tableWriteIdentity _ _ _ => none
  | .tableWriteScreen _ _ _ => none
  | .tableWriteBearer _ _ _ => none
  | .tableWriteEventClass _ _ _ => none
  | .tableRead _ _ _ _ => none
  | .cellPut _ _ _ _ => none
  | .cellDrop _ _ => none
  | .subAttach _ _ _ => none
  | .subDetach _ _ => none
  | .textTake _ => none
  | .statsTake _ _ => none
  | .voiceLoop _ _ => none
  | .checkInject _ _ _ _ => none
  | .warmReset _ => none
  | .malformedRequest _ _ => none
  | .alTransmitDone => none
  | .tableWriteNoSuchTable _ _ => none

/-- The bearer id of a TRAFFIC frame (11.6). -/
def bearerOf : Instr → Option Nat
  | .powerOnReset => none
  | .linkReadyChange _ => none
  | .sleepBoundary => none
  | .frameMark _ => none
  | .ready => none
  | .wakeInstant => none
  | .markWatchdogExpiry => none
  | .warmUpFailure => none
  | .connectGuardExpiry _ => none
  | .handoverGuardExpiry => none
  | .reacquireBudgetSpent _ => none
  | .groupExpiry _ => none
  | .targetDamageNotice => none
  | .codecPeriod _ => none
  | .page _ _ _ => none
  | .summary _ _ _ _ _ => none
  | .measReport _ _ _ => none
  | .acqResult _ => none
  | .syncStatus _ _ _ _ => none
  | .idleText _ _ _ => none
  | .linkGrant _ _ => none
  | .linkRelease _ _ => none
  | .handoverOrder _ _ _ => none
  | .loopOrder _ _ => none
  | .downlinkControlOther _ _ _ => none
  | .downlinkTraffic _ bearer _ _ _ => some bearer
  | .alFrameRejected _ => none
  | .uplinkTraffic _ bearer _ => some bearer
  | .linkRequest _ _ => none
  | .uplinkControlOther _ _ _ => none
  | .tableWriteGlobal _ _ _ => none
  | .tableWriteParam _ _ _ => none
  | .tableWriteIdentity _ _ _ => none
  | .tableWriteScreen _ _ _ => none
  | .tableWriteBearer _ _ _ => none
  | .tableWriteEventClass _ _ _ => none
  | .tableRead _ _ _ _ => none
  | .cellPut _ _ _ _ => none
  | .cellDrop _ _ => none
  | .subAttach _ _ _ => none
  | .subDetach _ _ => none
  | .textTake _ => none
  | .statsTake _ _ => none
  | .voiceLoop _ _ => none
  | .checkInject _ _ _ _ => none
  | .warmReset _ => none
  | .malformedRequest _ _ => none
  | .alTransmitDone => none
  | .tableWriteNoSuchTable _ _ => none

/-- A well-formed command carries a tag of one octet, a frame number in 0..1023 and a bearer id of one octet, where its row has
such a field. -/
def Statement (i : Instr) : Prop :=
  i.wellFormed = true →
    (∀ n, tagOf i = some n → n < 256) ∧ (∀ n, fnOf i = some n → n < 1024) ∧ ∀ n, bearerOf i = some n → n < 256

theorem powerOnReset : Statement (.powerOnReset) := by
  simp +contextual [Statement, tagOf, fnOf, bearerOf, Instr.wellFormed, writeFieldsOk, octetField, fnField]

theorem linkReadyChange (asserted : Bool) : Statement (.linkReadyChange asserted) := by
  simp +contextual [Statement, tagOf, fnOf, bearerOf, Instr.wellFormed, writeFieldsOk, octetField, fnField]

theorem sleepBoundary : Statement (.sleepBoundary) := by
  simp +contextual [Statement, tagOf, fnOf, bearerOf, Instr.wellFormed, writeFieldsOk, octetField, fnField]

theorem frameMark (fn : Nat) : Statement (.frameMark fn) := by
  simp +contextual [Statement, tagOf, fnOf, bearerOf, Instr.wellFormed, writeFieldsOk, octetField, fnField]

theorem ready : Statement (.ready) := by
  simp +contextual [Statement, tagOf, fnOf, bearerOf, Instr.wellFormed, writeFieldsOk, octetField, fnField]

theorem wakeInstant : Statement (.wakeInstant) := by
  simp +contextual [Statement, tagOf, fnOf, bearerOf, Instr.wellFormed, writeFieldsOk, octetField, fnField]

theorem markWatchdogExpiry : Statement (.markWatchdogExpiry) := by
  simp +contextual [Statement, tagOf, fnOf, bearerOf, Instr.wellFormed, writeFieldsOk, octetField, fnField]

theorem warmUpFailure : Statement (.warmUpFailure) := by
  simp +contextual [Statement, tagOf, fnOf, bearerOf, Instr.wellFormed, writeFieldsOk, octetField, fnField]

theorem connectGuardExpiry (s : Sub) : Statement (.connectGuardExpiry s) := by
  simp +contextual [Statement, tagOf, fnOf, bearerOf, Instr.wellFormed, writeFieldsOk, octetField, fnField]

theorem handoverGuardExpiry : Statement (.handoverGuardExpiry) := by
  simp +contextual [Statement, tagOf, fnOf, bearerOf, Instr.wellFormed, writeFieldsOk, octetField, fnField]

theorem reacquireBudgetSpent (s : Sub) : Statement (.reacquireBudgetSpent s) := by
  simp +contextual [Statement, tagOf, fnOf, bearerOf, Instr.wellFormed, writeFieldsOk, octetField, fnField]

theorem groupExpiry (record : Nat) : Statement (.groupExpiry record) := by
  simp +contextual [Statement, tagOf, fnOf, bearerOf, Instr.wellFormed, writeFieldsOk, octetField, fnField]

theorem targetDamageNotice : Statement (.targetDamageNotice) := by
  simp +contextual [Statement, tagOf, fnOf, bearerOf, Instr.wellFormed, writeFieldsOk, octetField, fnField]

theorem codecPeriod (payload : Octets) : Statement (.codecPeriod payload) := by
  simp +contextual [Statement, tagOf, fnOf, bearerOf, Instr.wellFormed, writeFieldsOk, octetField, fnField]

theorem page (s : Option Sub) (fn : Nat) (items : List PageItem) : Statement (.page s fn items) := by
  simp +contextual [Statement, tagOf, fnOf, bearerOf, Instr.wellFormed, writeFieldsOk, octetField, fnField]

theorem summary (key : Key) (tCell : Nat) (g : Nat) (area : Nat) (barred : Bool) : Statement (.summary key tCell g area barred) := by
  simp +contextual [Statement, tagOf, fnOf, bearerOf, Instr.wellFormed, writeFieldsOk, octetField, fnField]

theorem measReport (s : Option Sub) (fn : Nat) (cells : List RawCell) : Statement (.measReport s fn cells) := by
  simp +contextual [Statement, tagOf, fnOf, bearerOf, Instr.wellFormed, writeFieldsOk, octetField, fnField]

theorem acqResult (r : AcqResult) : Statement (.acqResult r) := by
  simp +contextual [Statement, tagOf, fnOf, bearerOf, Instr.wellFormed, writeFieldsOk, octetField, fnField]

theorem syncStatus (s : Option Sub) (key : Key) (status : Option SyncResult) (timing : Nat) : Statement (.syncStatus s key status timing) := by
  simp +contextual [Statement, tagOf, fnOf, bearerOf, Instr.wellFormed, writeFieldsOk, octetField, fnField]

theorem idleText (s : Option Sub) (fn : Nat) (seg : RawSegment) : Statement (.idleText s fn seg) := by
  simp +contextual [Statement, tagOf, fnOf, bearerOf, Instr.wellFormed, writeFieldsOk, octetField, fnField]

theorem linkGrant (s : Option Sub) (body : Octets) : Statement (.linkGrant s body) := by
  simp +contextual [Statement, tagOf, fnOf, bearerOf, Instr.wellFormed, writeFieldsOk, octetField, fnField]

theorem linkRelease (s : Option Sub) (body : Octets) : Statement (.linkRelease s body) := by
  simp +contextual [Statement, tagOf, fnOf, bearerOf, Instr.wellFormed, writeFieldsOk, octetField, fnField]

theorem handoverOrder (s : Option Sub) (target : Key) (guard : Nat) : Statement (.handoverOrder s target guard) := by
  simp +contextual [Statement, tagOf, fnOf, bearerOf, Instr.wellFormed, writeFieldsOk, octetField, fnField]

theorem loopOrder (s : Option Sub) (close : Bool) : Statement (.loopOrder s close) := by
  simp +contextual [Statement, tagOf, fnOf, bearerOf, Instr.wellFormed, writeFieldsOk, octetField, fnField]

theorem downlinkControlOther (s : Option Sub) (code : Nat) (body : Octets) : Statement (.downlinkControlOther s code body) := by
  simp +contextual [Statement, tagOf, fnOf, bearerOf, Instr.wellFormed, writeFieldsOk, octetField, fnField]

theorem downlinkTraffic (s : Option Sub) (bearer : Nat) (seq : Nat) (payload : Octets) (text : Option RawSegment) : Statement (.downlinkTraffic s bearer seq payload text) := by
  simp +contextual [Statement, tagOf, fnOf, bearerOf, Instr.wellFormed, writeFieldsOk, octetField, fnField]

theorem alFrameRejected (octets : Octets) : Statement (.alFrameRejected octets) := by
  simp +contextual [Statement, tagOf, fnOf, bearerOf, Instr.wellFormed, writeFieldsOk, octetField, fnField]

theorem uplinkTraffic (s : Option Sub) (bearer : Nat) (payload : Octets) : Statement (.uplinkTraffic s bearer payload) := by
  simp +contextual [Statement, tagOf, fnOf, bearerOf, Instr.wellFormed, writeFieldsOk, octetField, fnField]

theorem linkRequest (s : Option Sub) (body : Octets) : Statement (.linkRequest s body) := by
  simp +contextual [Statement, tagOf, fnOf, bearerOf, Instr.wellFormed, writeFieldsOk, octetField, fnField]

theorem uplinkControlOther (s : Option Sub) (code : Nat) (body : Octets) : Statement (.uplinkControlOther s code body) := by
  simp +contextual [Statement, tagOf, fnOf, bearerOf, Instr.wellFormed, writeFieldsOk, octetField, fnField]

theorem tableWriteGlobal (tag : Nat) (first : Nat) (entries : List GlobalWrite) : Statement (.tableWriteGlobal tag first entries) := by
  simp +contextual [Statement, tagOf, fnOf, bearerOf, Instr.wellFormed, writeFieldsOk, octetField, fnField]

theorem tableWriteParam (tag : Nat) (first : Nat) (entries : List ParamWrite) : Statement (.tableWriteParam tag first entries) := by
  simp +contextual [Statement, tagOf, fnOf, bearerOf, Instr.wellFormed, writeFieldsOk, octetField, fnField]

theorem tableWriteIdentity (tag : Nat) (first : Nat) (entries : List IdentityWrite) : Statement (.tableWriteIdentity tag first entries) := by
  simp +contextual [Statement, tagOf, fnOf, bearerOf, Instr.wellFormed, writeFieldsOk, octetField, fnField]

theorem tableWriteScreen (tag : Nat) (first : Nat) (words : List (BitVec 16)) : Statement (.tableWriteScreen tag first words) := by
  simp +contextual [Statement, tagOf, fnOf, bearerOf, Instr.wellFormed, writeFieldsOk, octetField, fnField]

theorem tableWriteBearer (tag : Nat) (first : Nat) (entries : List BearerWrite) : Statement (.tableWriteBearer tag first entries) := by
  simp +contextual [Statement, tagOf, fnOf, bearerOf, Instr.wellFormed, writeFieldsOk, octetField, fnField]

theorem tableWriteEventClass (tag : Nat) (first : Nat) (classes : List (Option EventClass)) : Statement (.tableWriteEventClass tag first classes) := by
  simp +contextual [Statement, tagOf, fnOf, bearerOf, Instr.wellFormed, writeFieldsOk, octetField, fnField]

theorem tableRead (tag : Nat) (table : Nat) (first : Option Nat) (count : Nat) : Statement (.tableRead tag table first count) := by
  simp +contextual [Statement, tagOf, fnOf, bearerOf, Instr.wellFormed, writeFieldsOk, octetField, fnField]

theorem cellPut (tag : Nat) (key : Key) (barred : Bool) (offset : Int) : Statement (.cellPut tag key barred offset) := by
  simp +contextual [Statement, tagOf, fnOf, bearerOf, Instr.wellFormed, writeFieldsOk, octetField, fnField]

theorem cellDrop (tag : Nat) (key : Key) : Statement (.cellDrop tag key) := by
  simp +contextual [Statement, tagOf, fnOf, bearerOf, Instr.wellFormed, writeFieldsOk, octetField, fnField]

theorem subAttach (tag : Nat) (s : Option Sub) (initial : Option Key) : Statement (.subAttach tag s initial) := by
  simp +contextual [Statement, tagOf, fnOf, bearerOf, Instr.wellFormed, writeFieldsOk, octetField, fnField]

theorem subDetach (tag : Nat) (s : Option Sub) : Statement (.subDetach tag s) := by
  simp +contextual [Statement, tagOf, fnOf, bearerOf, Instr.wellFormed, writeFieldsOk, octetField, fnField]

theorem textTake (tag : Nat) : Statement (.textTake tag) := by
  simp +contextual [Statement, tagOf, fnOf, bearerOf, Instr.wellFormed, writeFieldsOk, octetField, fnField]

theorem statsTake (tag : Nat) (clear : Nat) : Statement (.statsTake tag clear) := by
  simp +contextual [Statement, tagOf, fnOf, bearerOf, Instr.wellFormed, writeFieldsOk, octetField, fnField]

theorem voiceLoop (tag : Nat) (setting : Option Bool) : Statement (.voiceLoop tag setting) := by
  simp +contextual [Statement, tagOf, fnOf, bearerOf, Instr.wellFormed, writeFieldsOk, octetField, fnField]

theorem checkInject (tag : Nat) (table : Nat) (index : Nat) (positions : Nat) : Statement (.checkInject tag table index positions) := by
  simp +contextual [Statement, tagOf, fnOf, bearerOf, Instr.wellFormed, writeFieldsOk, octetField, fnField]

theorem warmReset (tag : Nat) : Statement (.warmReset tag) := by
  simp +contextual [Statement, tagOf, fnOf, bearerOf, Instr.wellFormed, writeFieldsOk, octetField, fnField]

theorem malformedRequest (tag : Nat) (code : Nat) : Statement (.malformedRequest tag code) := by
  simp +contextual [Statement, tagOf, fnOf, bearerOf, Instr.wellFormed, writeFieldsOk, octetField, fnField]

theorem alTransmitDone : Statement (.alTransmitDone) := by
  simp +contextual [Statement, tagOf, fnOf, bearerOf, Instr.wellFormed, writeFieldsOk, octetField, fnField]

theorem tableWriteNoSuchTable (tag : Nat) (table : Nat) : Statement (.tableWriteNoSuchTable tag table) := by
  simp +contextual [Statement, tagOf, fnOf, bearerOf, Instr.wellFormed, writeFieldsOk, octetField, fnField]

end Sys2Proof.Laws.Operands
end

