-- ==== Sys2Proof/Tests/Slice0.lean ====
section
/-! SUPPORT. Tests: an ill-formed command for each check of WellFormed, worked cases of the spec with the expected values taken
from its text, and for every statement of Obligations a state and operands that meet its hypotheses, clause by clause, most of
them at an end of a range. -/

namespace Sys2Proof.Tests

-- One test at a time: each asks the kernel, and many of them waiting for it at once take a thread each.
set_option Elab.async false

open Sys2Proof.Machine

/-! ## Small states -/

/-- Reset with the AL UP, nothing queued, nothing in transmission. -/
def calm : State :=
  { State.reset with alc := { State.reset.alc with linkReady := true, up := true, events := [], wakeReq := false } }

def home : Key := ⟨16, 0⟩
def target : Key := ⟨17, 0⟩
def spare : Key := ⟨15, 0⟩
def serving : Serving := { key := home, area := 7, tCell := 64, g := 3, cycle := 64 }

def aCell (k : Key) : Cell := { Cell.invalid with valid := true, key := k, listed := true, samples := 3, level := -400 }

def running (u : Sub) : HoRun :=
  { sub := u, source := home, timing := none, loop := false, triggers := [], target := target, guard := 50 }

/-- `u` in a served state on `home` (entry 0); in HANDOVER with `target` in entry 4; `spare` listed in entry 63. -/
def served (u : Sub) (st : SubState) : State :=
  { calm with
    scs := calm.scs.set u { SubRec.reset with state := st, serving := some serving, guard := if st = .connecting then some 200 else none }
    rta := { calm.rta with connected := calm.rta.connected.set u (st != .camped), hoExec := if st = .handover then some u else none }
    hxu := { calm.hxu with run := if st = .handover then some (running u) else none }
    ctb := { calm.ctb with
      frozen := st == .handover
      cells := ((calm.ctb.cells.set 0 { aCell home with serving := Two.set ⟨false, false⟩ u true }).set 4
        (if st = .handover then { aCell target with hoTarget := true } else Cell.invalid)).set 63 (aCell spare) } }

def onMarks : State :=
  { calm with ftb := { Ftb.reset with power := .on, counting := .marks, watchdog := some 492 } }

def aGrant : Grant := { fn := 0, owner := .sub .A, purpose := .reacquire, key := some home, serial := some 0, tuneAway := none }

def warming (g : Option Grant) : State := { calm with ftb := { Ftb.reset with power := .warming, held := g } }

def aClaim : Claim :=
  { owner := .sub .A, kind := .reacquire, start := 0, length := 32, origin := .none, granted := 32, begun := true, serial := 0 }

def openGroup : Group := { sub := .A, sender := [5], reference := 33, total := 3, received := [1], state := .opened 1 }

def withGroup (i : Nat) (g : Group) (s : State) : State := { s with txs := { s.txs with groups := s.txs.groups.set i (some g) } }

/-- No slot of the store is free. -/
def crammed (s : State) : State :=
  { s with txs := { s.txs with slots := List.replicate 48 (some
      { sub := .B, sender := [6], reference := 2, index := 1, total := 8, service := 0, arrival := 0, payload := [] }) } }

/-- No group record of the store is free. -/
def allGrouped (s : State) : State := { s with txs := { s.txs with groups := List.replicate 12 (some { openGroup with sub := .B }) } }

def playing : Playout :=
  { phase := .playing 255, bearer := 31, owner := .A, depth := 4, buffer := [⟨255, [1]⟩], last := some [9], run := 0, upSeq := 255 }

def withPlay (p : Playout) (s : State) : State := { s with vpb := { s.vpb with play := some p } }

/-- The two loops set. -/
def looped (codec : Bool) (radio : Option Sub) (s : State) : State :=
  { s with vpb := { s.vpb with codecLoop := codec, radioLoop := radio } }

def withBearer (i : Nat) (b : Checked Bearer) (s : State) : State := { s with tab := { s.tab with bearer := s.tab.bearer.set i b } }

def voiceBearer : State := withBearer 31 { val := ⟨.A, .voice, .active⟩, check := .good, damaged := false } (served .A .connected)

def fullQueue (u : Sub) (s : State) : State :=
  { s with brt := { s.brt with queues := s.brt.queues.set u (List.replicate 16 .storeReady) } }

/-- A's LOOP_ORDERs accepted, A connected. -/
def accepting (loop : Option Sub) : State :=
  { served .A .connected with
    tab := { calm.tab with param := calm.tab.param.set .A (.fresh { Param.default with acceptLoop := true }) }
    vpb := { calm.vpb with radioLoop := loop } }

/-- A camped, its page at FN 58 being read, identity entry 3 PERMANENT 7. -/
def reading : State :=
  { served .A .camped with
    ftb := { Ftb.reset with fn := 58 }
    pgm := { calm.pgm with recs := ⟨{ readOccasion := some 58 }, {}⟩ }
    tab := { calm.tab with identity := calm.tab.identity.set 3 (.fresh { kind := .permanent, digits := [7], number := 0, valid := true }) } }

def anItem (n : Nat) : PageItem :=
  { kind := some .permanent, digits := [7], number := 0, base := 252, span := 4, follows := n, ref := 15 }

/-- A in SEARCH with no candidate. -/
def searching : State := calm.modSub .A (fun r => { r with state := .search })

/-- A's identity entry 3 marked damaged while A's page is being read. -/
def readingDamaged : State :=
  { reading with tab := { reading.tab with identity := reading.tab.identity.modify 3 (fun e => { e with damaged := true, check := .two }) } }

/-- Code 255, the last of a whole map, blocked for `u`. -/
def blocking (u : Sub) (s : State) : State :=
  { s with tab := { s.tab with screen := s.tab.screen.set (16 * u.code + 15) (.fresh 0x8000#16) } }

/-- Entry `i` owned by A with a stale count. -/
def owning (i stale : Nat) (s : State) : State :=
  modCell i (fun c => c.modPart .A (fun p => { p with owned := true, stale := stale })) s

/-- A camped and reselecting to `target`, its REACQUIRE in the list. -/
def reselectingTo : State :=
  (served .A .camped).modSub .A (fun r => { r with reselecting := true, candidate := some target }) |>.modRta
    (fun r => { r with claims := [aClaim], nextSerial := 1 })

def found : AcqResult :=
  { owner := some (.sub .A), purpose := some .search, found := true, key := home, barred := false, tCell := 32, g := 7, area := 0 }

/-- A frame of kind 3, naming neither subscription, without a body: its frame check holds, and no kind above 2 is taken (R174). -/
def badFrame : Octets := withCheck [3, 2, 0, 0, 0, 0]

/-- The entry of the target is gone. -/
def targetLost (u : Sub) : State := setCell 4 Cell.invalid (served u .handover)

/-- A in SEARCH with its initial cell named, its REACQUIRE in the list. -/
def acquiring : State :=
  (calm.modSub .A (fun r => { r with state := .search, candidate := some target })).modRta
    (fun r => { r with claims := [aClaim], nextSerial := 1 })

/-! ## Invariants by evaluation -/

theorem clean_of_check (s : State)
    (h : (s.tab.global.sound = true ∧ s.tab.param.a.sound = true ∧ s.tab.param.b.sound = true ∧
      (∀ e ∈ s.tab.identity, e.sound = true) ∧ (∀ e ∈ s.tab.screen, e.sound = true) ∧ (∀ e ∈ s.tab.bearer, e.sound = true) ∧
      (∀ e ∈ s.tab.eventClass, e.sound = true) ∧ ∀ c ∈ s.ctb.cells, c.check = .good)) : Clean s := by
  obtain ⟨h0, ha, hb, h1, h2, h3, h4, h5⟩ := h
  exact ⟨h0, fun u => by cases u; exact ha; exact hb, h1, h2, h3, h4, h5⟩

/-- The parts of CoreInv that speak of one subscription. -/
def subCheck (s : State) (u : Sub) : Bool :=
  (s.sub u).serving.isSome == isServed s u && (s.sub u).guard.isSome == ((s.sub u).state == .connecting) &&
    (!(s.sub u).reselecting || ((s.sub u).state == .camped && (s.sub u).candidate.isSome)) &&
    (!(s.sub u).candidate.isSome || ((s.sub u).state == .search || (s.sub u).reselecting)) &&
    (!(s.pgm.recs.get u).chain.isSome || inSearch s u) &&
    ((s.sub u).state == .handover) == (s.hxu.run.map (fun r => r.sub) == some u) &&
    s.rta.connected.get u == holdsLink s u && (s.vpb.radioLoop != some u || holdsLink s u) &&
    (s.sub u).serving.all (fun v => (List.range 64).any (fun i =>
      (cellAt s i).valid && (cellAt s i).serving.get u && (cellAt s i).key == v.key))

/-- The parts that speak of one entry. -/
def cellCheck (s : State) (i : Nat) : Bool :=
  !(cellAt s i).valid || (setOf (cellAt s i).key == i / 4 &&
    (List.range 64).all (fun j => i == j || !(cellAt s j).valid || (cellAt s i).key != (cellAt s j).key) &&
    (!(cellAt s i).serving.a || (s.sub .A).serving.map (fun v => v.key) == some (cellAt s i).key) &&
    (!(cellAt s i).serving.b || (s.sub .B).serving.map (fun v => v.key) == some (cellAt s i).key) &&
    (!(cellAt s i).hoTarget || s.hxu.run.map (fun r => r.target) == some (cellAt s i).key))

theorem valid_below {s : State} (h : s.ctb.cells.length = 64) {i : Nat} (hv : (cellAt s i).valid = true) : i < 64 := by
  refine Nat.lt_of_not_le (fun hn => ?_)
  simp [cellAt, List.getD_eq_getElem?_getD, List.getElem?_eq_none (show s.ctb.cells.length ≤ i by omega), Cell.invalid] at hv

theorem core_of_check (s : State)
    (h : SizesInv s ∧ subCheck s .A = true ∧ subCheck s .B = true ∧ ¬ (holdsLink s .A = true ∧ holdsLink s .B = true) ∧
      s.rta.hoExec = s.hxu.run.map (fun r => r.sub) ∧ s.ctb.frozen = s.hxu.run.isSome ∧
      s.hxu.run.all (fun r => decide (r.triggers.Pairwise (fun x y => x.entry < y.entry))) = true ∧
      (List.range 64).all (cellCheck s) = true) : CoreInv s := by
  obtain ⟨hs, ha, hb, hl, he, hf, ht, hc⟩ := h
  have hu : ∀ u, subCheck s u = true := fun u => by cases u <;> assumption
  have hci : ∀ i, (cellAt s i).valid = true → cellCheck s i = true := fun i hv =>
    List.all_eq_true.mp hc i (List.mem_range.mpr (valid_below hs.1 hv))
  refine ⟨hs, fun u => ?_, ⟨fun u => ?_, he, hf, fun r hr => by simpa [hr] using ht⟩, ⟨hl, fun u => ?_, fun u hr => ?_⟩, ?_, ?_, ?_, ?_, ?_⟩
  · have h := hu u
    simp only [subCheck, Bool.and_eq_true, beq_iff_eq, Bool.or_eq_true, Bool.not_eq_true'] at h
    obtain ⟨⟨⟨⟨⟨⟨⟨⟨h1, h2⟩, h3⟩, h4⟩, h9⟩, h5⟩, h6⟩, h7⟩, h8⟩ := h
    refine ⟨h1, by rw [h2]; simp, fun hr => ?_, fun hr => ?_, fun hr => ?_⟩
    · rcases h3 with h3 | h3
      · simp [hr] at h3
      · exact h3
    · rcases h4 with h4 | h4
      · simp [hr] at h4
      · exact h4
    · simpa [hr] using h9
  · have h := hu u
    simp only [subCheck, Bool.and_eq_true, beq_iff_eq] at h
    have h5 := h.1.1.1.2
    rw [Bool.eq_iff_iff] at h5
    simpa using h5
  · have h := hu u
    simp only [subCheck, Bool.and_eq_true, beq_iff_eq] at h
    exact h.1.1.2
  · have h := hu u
    simp only [subCheck, Bool.and_eq_true, Bool.or_eq_true] at h
    simpa [hr] using h.1.2
  · intro i hv
    have h := hci i hv
    simp only [cellCheck, hv, Bool.and_eq_true, beq_iff_eq, Bool.not_true, Bool.false_or] at h
    exact h.1.1.1.1
  · intro i j hv hj hk
    have h := hci i hv
    simp only [cellCheck, hv, Bool.and_eq_true, beq_iff_eq, Bool.not_true, Bool.false_or] at h
    have h := List.all_eq_true.mp h.1.1.1.2 j (List.mem_range.mpr (valid_below hs.1 hj))
    simpa [hj, hk] using h
  · intro i u hv hp
    have h := hci i hv
    simp only [cellCheck, hv, Bool.and_eq_true, Bool.not_true, Bool.false_or, Bool.or_eq_true, beq_iff_eq, Bool.not_eq_true'] at h
    cases u
    · exact h.1.1.2.resolve_left (by simpa [Two.get] using hp)
    · exact h.1.2.resolve_left (by simpa [Two.get] using hp)
  · intro u v hv
    have h := hu u
    simp only [subCheck, Bool.and_eq_true] at h
    have h8 := h.2
    simp only [hv, Option.all_some, List.any_eq_true, Bool.and_eq_true, beq_iff_eq] at h8
    obtain ⟨i, _, ⟨h1, h2⟩, h3⟩ := h8
    exact ⟨i, h1, h2, h3⟩
  · intro i hv hp
    have h := hci i hv
    simp only [cellCheck, hv, Bool.and_eq_true, Bool.not_true, Bool.false_or, Bool.or_eq_true, beq_iff_eq, Bool.not_eq_true'] at h
    exact h.2.resolve_left (by simp [hp])

theorem ranges_of_check (s : State)
    (h : s.tab.global.val = .default ∧ s.tab.param.a.val = .default ∧ s.tab.param.b.val = .default ∧
      (s.sub .A).missed ≤ (effParam s .A).starvation ∧ (s.sub .B).missed ≤ (effParam s .B).starvation ∧
      (s.sub .A).guard.all (fun n => 1 ≤ n && n ≤ 500) = true ∧ (s.sub .B).guard.all (fun n => 1 ≤ n && n ≤ 500) = true ∧
      s.hxu.run.all (fun r => 1 ≤ r.guard && r.guard ≤ 100) = true ∧ (∀ n ∈ s.tmc.correctable, n ≤ 15) ∧
      ∀ n ∈ s.tmc.uncorrectable, n ≤ 15) : RangesInv s := by
  obtain ⟨h0, h1, h2, h3, h4, h5, h6, h7, h8, h9⟩ := h
  have hp : paramInRange Param.default := by simp [paramInRange, Param.default]
  refine ⟨by simp [h0, globalInRange, GlobalEntry.default], fun u => ?_, fun r hr => by simpa [hr] using h7, h8, h9⟩
  cases u
  · exact ⟨by simpa [Two.get, h1] using hp, h3, fun n hn => by simpa [hn] using h5⟩
  · exact ⟨by simpa [Two.get, h2] using hp, h4, fun n hn => by simpa [hn] using h6⟩

theorem settled_of_check {s : State} (hc : ClaimsInv s) (hr : RangesInv s) (hk : Clean s)
    (h : s.ftb.fn < 1024 ∧ (s.sub .A).serving.all (fun w => [32, 64, 128, 256].contains w.cycle) = true ∧
      (s.sub .B).serving.all (fun w => [32, 64, 128, 256].contains w.cycle) = true) : Settled s := by
  refine ⟨hc, hr, hk, h.1, fun u v hv => ?_⟩
  cases u
  · simpa [hv] using h.2.1
  · simpa [hv] using h.2.2

/-! ## A state and operands for each statement, clause by clause -/

theorem witness_LinkReadyChangeEffect :
    (∃ (s : State), s.alc.up = false) ∧
    (∃ (s : State), s.alc.up = true) ∧
    (∃ (b : Bool) (s : State), s.alc.up = b) :=
  ⟨⟨State.reset, by decide +kernel⟩,
   ⟨calm, by decide +kernel⟩,
   ⟨true, calm, by decide +kernel⟩⟩

theorem witness_SleepCountedBoundary :
    (∃ (len : Nat) (s : State), s.ftb.counting = .sleep len ∧
      s.tab.global.sound = true) ∧
    (∃ (s : State), s.ftb.counting = .marks) ∧
    (∃ (len : Nat) (x : State) (s : State), Clean s ∧
      (s.ftb.power = .off → ∀ w, s.ftb.wake = some w → len ≤ w) ∧
      (∀ n, s.ftb.watchdog = some n → len - s.ftb.elapsed < n) ∧
      x = { s with ftb := { sleepFrame s s.ftb with watchdog := s.ftb.watchdog.map (fun n => n - (len - s.ftb.elapsed)) } } ∧
      s.ftb.counting = .sleep len ∧
      (s.ftb.power = .warming → s.ftb.held = none)) ∧
    (∃ (len : Nat) (w : Nat) (x : State) (s : State), Clean s ∧
      (∀ n, s.ftb.watchdog = some n → len - s.ftb.elapsed < n) ∧
      x = withFl [.power true] { s with ftb := { sleepFrame s s.ftb with watchdog := s.ftb.watchdog.map (fun n => n - (len - s.ftb.elapsed)), power := .warming, wake := none } } ∧
      s.ftb.counting = .sleep len ∧
      s.ftb.power = .off ∧
      s.ftb.wake = some w ∧
      w < len) :=
  ⟨⟨327, State.reset, by decide +kernel⟩,
   ⟨onMarks, by decide +kernel⟩,
   ⟨327, _, { State.reset with ftb := { Ftb.reset with wake := some 327 } }, clean_of_check _ (by decide +kernel), by intro _ w hw; have := Option.some.inj hw; omega, by simp [Ftb.reset], rfl, by decide +kernel⟩,
   ⟨327, 326, _, { State.reset with ftb := { Ftb.reset with wake := some 326 } }, clean_of_check _ (by decide +kernel), by simp [Ftb.reset], rfl, by decide +kernel⟩⟩

theorem witness_FrameMarkAdoption :
    (∃ (s : State), s.ftb.power ≠ .on) ∧
    (∃ (fn : Nat) (e : Nat) (s : State), s.ftb.power = .on ∧
      fn < 1024 ∧
      s.ftb.fn < 1024 ∧
      e = (if s.ftb.comparePending = true ∧ beforeMiddle s.ftb = true then s.ftb.fn else (s.ftb.fn + 1) % 1024)) ∧
    (∃ (fn : Nat) (len : Nat) (s : State), s.ftb.power = .on ∧
      s.ftb.comparePending = true ∧
      s.ftb.counting = .sleep len ∧
      s.ftb.elapsed < len / 2 ∧
      s.ftb.fn < 1024 ∧
      fn = s.ftb.fn) ∧
    (∃ (fn : Nat) (e : Nat) (y : State) (x : State) (s : State), Clean s ∧
      y = (if fn = e then { s with ftb := markFrom fn s.ftb } else if s.ftb.comparePending = true then
          post .fnSlip none (if (fn + 1024 - e) % 1024 ≤ 511 then (((fn + 1024 - e) % 1024 : Nat) : Int) else
            (((fn + 1024 - e) % 1024 : Nat) : Int) - 1024) e
            { s with ftb := { markFrom fn s.ftb with cnt := { s.ftb.cnt with slips := satInc s.ftb.cnt.slips } } }
        else { s with ftb := { markFrom fn s.ftb with
          cnt := { s.ftb.cnt with discontinuities := satInc s.ftb.cnt.discontinuities } } }) ∧
      x = (if 1 ≤ (fn + 1024 - e) % 1024 ∧ (fn + 1024 - e) % 1024 ≤ 511 then jumpClaims s.ftb.fn fn y else y) ∧
      s.ftb.power = .on ∧
      fn < 1024 ∧
      s.ftb.fn < 1024 ∧
      e = (if s.ftb.comparePending = true ∧ beforeMiddle s.ftb = true then s.ftb.fn else (s.ftb.fn + 1) % 1024) ∧
      ¬(fn = e ∧ e = s.ftb.fn)) :=
  ⟨⟨State.reset, by decide +kernel⟩,
   ⟨1023, 1023, { onMarks with ftb := { onMarks.ftb with fn := 1022 } }, by decide +kernel⟩,
   ⟨1023, 328, { onMarks with ftb := { onMarks.ftb with fn := 1023, comparePending := true, counting := .sleep 328, elapsed := 163 } }, by decide +kernel⟩,
   ⟨1, 1023, _, _, { onMarks with ftb := { onMarks.ftb with fn := 1022 } }, clean_of_check _ (by decide +kernel), rfl, rfl, by decide +kernel⟩⟩

theorem witness_ReadySwitchesOn :
    (∃ (s : State), s.ftb.power ≠ .warming) ∧
    (∃ (s : State), s.ftb.power = .warming ∧
      s.ftb.held = none) ∧
    (∃ (g : Grant) (s : State), s.ftb.power = .warming ∧
      s.ftb.held = some g) :=
  ⟨⟨State.reset, by decide +kernel⟩,
   ⟨warming none, by decide +kernel⟩,
   ⟨aGrant, warming (some aGrant), by decide +kernel⟩⟩

theorem witness_WakeInstantPowersOn :
    (∃ (len : Nat) (w : Nat) (s : State), s.ftb.power = .off ∧
      s.ftb.counting = .sleep len ∧
      s.ftb.wake = some w ∧
      w < len) ∧
    (∃ (s : State), (s.ftb.power ≠ .off ∨ s.ftb.wake = none ∨ s.ftb.counting = .marks)) ∧
    (∃ (len : Nat) (w : Nat) (s : State), s.ftb.counting = .sleep len ∧
      s.ftb.wake = some w ∧
      len ≤ w) :=
  ⟨⟨327, 326, { State.reset with ftb := { Ftb.reset with wake := some 326 } }, by decide +kernel⟩,
   ⟨State.reset, by decide +kernel⟩,
   ⟨327, 327, { State.reset with ftb := { Ftb.reset with wake := some 327 } }, by decide +kernel⟩⟩

theorem witness_FrontEndFaults :
    (∃ (s : State), s.ftb.power = .on ∧
      s.ftb.watchdog.isSome = true) ∧
    (∃ (s : State), (s.ftb.power ≠ .on ∨ s.ftb.watchdog = none)) ∧
    (∃ (len : Nat) (g : Grant) (s : State), s.ftb.power = .warming ∧
      s.ftb.counting = .sleep len ∧
      s.ftb.held = some g ∧
      s.ftb.watchdog = none) ∧
    (∃ (s : State), (s.ftb.power ≠ .warming ∨ s.ftb.held = none ∨ s.ftb.counting = .marks)) ∧
    (∃ (y : State) (x : State) (s : State), Clean s ∧
      y = post .feFault none s.ftb.fn 1 (withFl [.power false] { s with ftb := { s.ftb with power := .off, watchdog := none, comparePending := false } }) ∧
      x = { y with ftb := sleepFrame s y.ftb } ∧
      s.ftb.power = .on ∧
      s.ftb.watchdog.isSome = true ∧
      s.ftb.counting = .marks) ∧
    (∃ (y : State) (s : State), y = post .feFault none s.ftb.fn 1 (withFl [.power false] { s with ftb := { s.ftb with power := .off, watchdog := none, comparePending := false } }) ∧
      s.ftb.power = .on ∧
      s.ftb.watchdog.isSome = true ∧
      s.ftb.counting ≠ .marks) ∧
    (∃ (len : Nat) (g : Grant) (y : State) (x : State) (s : State), Clean s ∧
      y = failedGrant g (dropBound (post .feFault (ownerSub g.owner) g.fn 0 (withFl [.power false] { s with ftb := { s.ftb with held := none } }))) ∧
      x = { y with ftb := { sleepFrame s y.ftb with power := .off } } ∧
      s.ftb.power = .warming ∧
      s.ftb.counting = .sleep len ∧
      s.ftb.held = some g ∧
      s.ftb.watchdog = none) :=
  ⟨⟨onMarks, by decide +kernel⟩,
   ⟨State.reset, by decide +kernel⟩,
   ⟨327, aGrant, warming (some aGrant), by decide +kernel⟩,
   ⟨State.reset, by decide +kernel⟩,
   ⟨_, _, onMarks, clean_of_check _ (by decide +kernel), rfl, rfl, by decide +kernel⟩,
   ⟨_, { onMarks with ftb := { onMarks.ftb with counting := .sleep 327 } }, rfl, by decide +kernel⟩,
   ⟨327, aGrant, _, _, warming (some aGrant), clean_of_check _ (by decide +kernel), rfl, rfl, by decide +kernel⟩⟩

theorem witness_LinkReleaseAndGuardExpiry :
    (∃ (u : Sub) (s : State), ((s.sub u).state = .connecting ∨ (s.sub u).state = .connected) ∧
      s.ftb.fn < 1024) ∧
    (∃ (u : Sub) (n : Nat) (s : State), (s.sub u).state = .connecting ∧
      (s.sub u).guard = some n ∧
      n ≤ 1 ∧
      s.ftb.fn < 1024) ∧
    (∃ (u : Sub) (r : HoRun) (s : State), CoreInv s ∧
      (s.sub u).state = .handover ∧
      s.hxu.run = some r ∧
      r.sub = u) ∧
    (∃ (u : Sub) (s : State), (s.sub u).state ∈ [.detached, .search, .camped]) ∧
    (∃ (u : Sub) (s : State), ((s.sub u).state ≠ .connecting ∨ ∀ n, (s.sub u).guard = some n → 1 < n)) :=
  ⟨⟨.B, { served .B .connected with ftb := { Ftb.reset with fn := 1023 } }, by decide +kernel⟩,
   ⟨.A, 1, (served .A .connecting).modSub .A (fun r => { r with guard := some 1 }), by decide +kernel⟩,
   ⟨.A, running .A, served .A .handover, core_of_check _ (by unfold SizesInv; decide +kernel), by decide +kernel⟩,
   ⟨.A, served .A .camped, by decide +kernel⟩,
   ⟨.A, State.reset, .inl (by decide +kernel)⟩⟩

theorem witness_HandoverRestored :
    (∃ (u : Sub) (k : Key) (r : HoRun) (s : State), CoreInv s ∧
      (s.sub u).state = .handover ∧
      s.hxu.run = some r ∧
      r.sub = u ∧
      k = r.target ∧
      keyInRange k = true) ∧
    (∃ (r : HoRun) (s : State), CoreInv s ∧
      s.hxu.run = some r ∧
      r.guard ≤ 1) ∧
    (∃ (r : HoRun) (s : State), CoreInv s ∧
      s.hxu.run = some r ∧
      s.hxu.notice = true) ∧
    (∃ (s : State), (∀ r, s.hxu.run = some r → 1 < r.guard)) ∧
    (∃ (s : State), s.hxu.notice = false) ∧
    (∃ (s : State), s.hxu.run = none ∧
      s.hxu.notice = true) :=
  ⟨⟨.A, target, running .A, served .A .handover, core_of_check _ (by unfold SizesInv; decide +kernel), by decide +kernel⟩,
   ⟨{ running .A with guard := 1 }, { served .A .handover with hxu := { State.reset.hxu with run := some { running .A with guard := 1 } } }, core_of_check _ (by unfold SizesInv; decide +kernel), by decide +kernel⟩,
   ⟨running .A, { served .A .handover with hxu := { State.reset.hxu with run := some (running .A), notice := true } }, core_of_check _ (by unfold SizesInv; decide +kernel), by decide +kernel⟩,
   ⟨State.reset, by intros; simp_all [State.reset]⟩,
   ⟨State.reset, by decide +kernel⟩,
   ⟨{ State.reset with hxu := { State.reset.hxu with notice := true } }, by decide +kernel⟩⟩

theorem witness_HandoverCommitted :
    (∃ (u : Sub) (k : Key) (r : HoRun) (v : Serving) (s : State), Clean s ∧
      (s.sub u).state = .handover ∧
      s.hxu.run = some r ∧
      r.sub = u ∧
      k = r.target ∧
      keyInRange k = true ∧
      s.ctb.cells.length = 64 ∧
      (s.sub u).serving = some v ∧
      (∃ i < 64, i / 4 = setOf k ∧ (cellAt s i).valid = true ∧ (cellAt s i).key = k)) ∧
    (∃ (u : Sub) (k : Key) (s : State), ((s.sub u).state = .connecting ∨ (s.sub u).state = .connected) ∧
      keyInRange k = true ∧
      (s.sub u).serving.map (fun v => v.key) = some k) ∧
    (∃ (u : Sub) (k : Key) (r : HoRun) (s : State), CoreInv s ∧
      (s.sub u).state = .handover ∧
      s.hxu.run = some r ∧
      r.sub = u ∧
      k = r.target ∧
      keyInRange k = true ∧
      (∀ i < 64, (cellAt s i).valid = true → (cellAt s i).key = k → (cellAt s i).check = .two ∧ (cellAt s i).hoTarget = true)) :=
  ⟨⟨.B, target, running .B, serving, served .B .handover, clean_of_check _ (by decide +kernel), by decide +kernel⟩,
   ⟨.A, home, served .A .connecting, by decide +kernel⟩,
   ⟨.A, target, running .A, targetLost .A, core_of_check _ (by unfold SizesInv; decide +kernel), by decide +kernel⟩⟩

theorem witness_HandoverOrderHandled :
    (∃ (u : Option Sub) (k : Key) (cause : Nat) (s : State), (if u = none ∨ keyInRange k = false then some 2 else if s.hxu.run.isSome = true then some 1 else if u.all (fun b => decide ((s.sub b).state = .connected)) = false then some 0 else if u.all (fun b => decide ((s.sub b).serving.map (fun v => v.key) = some k)) = true then some 3 else none) = some cause) ∧
    (∃ (u : Sub) (k : Key) (v : Serving) (s : State), keyInRange k = true ∧
      s.hxu.run = none ∧
      (s.sub u).state = .connected ∧
      (s.sub u).serving = some v ∧
      v.key ≠ k) :=
  ⟨⟨some .A, target, 0, served .A .camped, by decide +kernel⟩,
   ⟨.A, ⟨16383, 1023⟩, serving, served .A .connected, by decide +kernel⟩⟩

theorem witness_AcquisitionBudgetSpent :
    (∃ (u : Sub) (s : State), (∃ c ∈ s.rta.claims, c.kind = .reacquire ∧ c.owner = .sub u ∧ 32 ≤ c.granted)) ∧
    (∃ (u : Sub) (s : State), (∀ c ∈ s.rta.claims, c.kind = .reacquire → c.owner = .sub u → c.granted < 32)) :=
  ⟨⟨.A, { State.reset with rta := { State.reset.rta with claims := [aClaim] } }, by decide +kernel⟩,
   ⟨.A, { State.reset with rta := { State.reset.rta with claims := [{ aClaim with granted := 31 }] } }, by decide +kernel⟩⟩

theorem witness_GroupReleasedPartial :
    (∃ (i : Nat) (g : Group) (n : Nat) (s : State), groupAt s i = some g ∧
      g.state = .opened n ∧
      n ≤ 1) ∧
    (∃ (i : Nat) (s : State), (∀ g n, groupAt s i = some g → g.state = .opened n → 1 < n)) :=
  ⟨⟨11, openGroup, 1, withGroup 11 openGroup calm, by decide +kernel⟩,
   ⟨12, State.reset, by intro g n h; simp [groupAt, State.reset] at h⟩⟩

theorem witness_CodecPeriodPull :
    (∃ (s : State), s.vpb.play = none) ∧
    (∃ (p : Playout) (s : State), (∀ n, p.phase ≠ .playing n) ∧
      s.vpb.codecLoop = false ∧
      s.vpb.play = some p) ∧
    (∃ (p : Playout) (n : Nat) (f : VoiceFrame) (s : State), s.vpb.codecLoop = false ∧
      s.vpb.play = some p ∧
      p.phase = .playing n ∧
      f ∈ p.buffer ∧
      f.seq = n ∧
      (p.buffer.map (fun g => g.seq)).Nodup) ∧
    (∃ (p : Playout) (n : Nat) (x : Octets) (s : State), s.vpb.codecLoop = false ∧
      s.vpb.play = some p ∧
      p.phase = .playing n ∧
      (∀ f ∈ p.buffer, f.seq ≠ n) ∧
      p.last = some x ∧
      p.run < 3) ∧
    (∃ (p : Playout) (n : Nat) (s : State), s.vpb.codecLoop = false ∧
      s.vpb.play = some p ∧
      p.phase = .playing n ∧
      (∀ f ∈ p.buffer, f.seq ≠ n) ∧
      (p.last = none ∨ 3 ≤ p.run)) ∧
    (∃ (p : Playout) (s : State), s.vpb.codecLoop = false ∧
      s.vpb.radioLoop = none ∧
      s.vpb.play = some p) ∧
    (∃ (s : State), (s.vpb.codecLoop = true ∨ s.vpb.radioLoop ≠ none)) ∧
    (∃ (p : Playout) (s : State), s.vpb.codecLoop = true ∧
      s.vpb.play = some p ∧
      p.phase = .armed ∧
      1 < p.depth / 2) ∧
    (∃ (p : Playout) (s : State), s.vpb.codecLoop = true ∧
      s.vpb.play = some p ∧
      (p.phase = .armed ∧ p.depth / 2 ≤ 1 ∧ p.buffer = [] ∨ p.phase = .playing p.upSeq ∧ (∀ f ∈ p.buffer, f.seq ≠ p.upSeq) ∧ p.buffer.length < p.depth)) ∧
    (∃ (p : Playout) (n : Nat) (s : State), s.vpb.codecLoop = true ∧
      s.vpb.play = some p ∧
      p.phase.next = some n) ∧
    (∃ (b : Sub) (p : Playout) (s : State), s.vpb.codecLoop = false ∧
      s.vpb.radioLoop = some b ∧
      s.vpb.play = some p) ∧
    (∃ (p : Playout) (s : State), s.vpb.codecLoop = false ∧
      s.vpb.play = some p ∧
      s.tab.global.sound = true) :=
  ⟨⟨State.reset, by decide +kernel⟩,
   ⟨{ playing with phase := .armed, buffer := [] }, withPlay { playing with phase := .armed, buffer := [] } calm, by intro n; simp, by decide +kernel⟩,
   ⟨playing, 255, ⟨255, [1]⟩, withPlay playing calm, by decide +kernel⟩,
   ⟨{ playing with phase := .playing 254, run := 2 }, 254, [9], withPlay { playing with phase := .playing 254, run := 2 } calm, by decide +kernel⟩,
   ⟨{ playing with phase := .playing 254, run := 3 }, 254, withPlay { playing with phase := .playing 254, run := 3 } calm, by decide +kernel⟩,
   ⟨playing, withPlay playing calm, by decide +kernel⟩,
   ⟨{ calm with vpb := { calm.vpb with codecLoop := true } }, by decide +kernel⟩,
   ⟨{ playing with phase := .armed, buffer := [] }, looped true none (withPlay { playing with phase := .armed, buffer := [] } calm), by decide +kernel⟩,
   ⟨{ playing with phase := .armed, buffer := [], depth := 2 }, looped true none (withPlay { playing with phase := .armed, buffer := [], depth := 2 } calm), by decide +kernel⟩,
   ⟨playing, 255, looped true (some .A) (withPlay playing calm), by decide +kernel⟩,
   ⟨.B, playing, looped false (some .B) (withPlay playing calm), by decide +kernel⟩,
   ⟨playing, withPlay playing calm, by decide +kernel⟩⟩

theorem witness_PageTaken :
    (∃ (u : Sub) (fn : Nat) (s : State), (s.sub u).state = .camped ∧
      (s.pgm.recs.get u).readOccasion = some fn) ∧
    (∃ (u : Sub) (fn : Nat) (items : List PageItem) (i : PageItem) (k : IdKind) (s : State), Clean s ∧
      postable s .paged ∧
      (s.sub u).state = .camped ∧
      (s.pgm.recs.get u).readOccasion = some fn ∧
      items = [i] ∧
      pageItemKind i = some k ∧
      (∃ j < 4, (identityAt s (4 * u.code + j)).damaged = false ∧ (identityAt s (4 * u.code + j)).val.valid = true ∧ (identityAt s (4 * u.code + j)).val.kind = k ∧ (if k = .permanent then (identityAt s (4 * u.code + j)).val.digits = i.digits else (identityAt s (4 * u.code + j)).val.number = i.number)) ∧
      (∀ d < i.span, i.base + d < (effParam s u).screenLen ∧ ((screenAt s (16 * u.code + (i.base + d) / 16)).damaged = true ∨ (screenAt s (16 * u.code + (i.base + d) / 16)).val.getLsbD ((i.base + d) % 16) = false)) ∧
      i.follows = 0) ∧
    (∃ (u : Sub) (fn : Nat) (items : List PageItem) (i : PageItem) (k : IdKind) (s : State), Clean s ∧
      (s.sub u).state = .camped ∧
      (s.pgm.recs.get u).readOccasion = some fn ∧
      fn = s.ftb.fn ∧
      fn < 1024 ∧
      items = [i] ∧
      pageItemKind i = some k ∧
      (∃ j < 4, (identityAt s (4 * u.code + j)).damaged = false ∧ (identityAt s (4 * u.code + j)).val.valid = true ∧ (identityAt s (4 * u.code + j)).val.kind = k ∧ (if k = .permanent then (identityAt s (4 * u.code + j)).val.digits = i.digits else (identityAt s (4 * u.code + j)).val.number = i.number)) ∧
      (∀ d < i.span, i.base + d < (effParam s u).screenLen ∧ ((screenAt s (16 * u.code + (i.base + d) / 16)).damaged = true ∨ (screenAt s (16 * u.code + (i.base + d) / 16)).val.getLsbD ((i.base + d) % 16) = false)) ∧
      i.follows ≠ 0 ∧
      s.rta.claims.length < 15 ∧
      storeReadyWaiting s u = false) ∧
    (∃ (u : Sub) (fn : Nat) (items : List PageItem) (i : PageItem) (k : IdKind) (s : State), Clean s ∧
      (s.sub u).state = .camped ∧
      (s.pgm.recs.get u).readOccasion = some fn ∧
      items = [i] ∧
      pageItemKind i = some k ∧
      ¬(∃ j < 4, (identityAt s (4 * u.code + j)).damaged = false ∧ (identityAt s (4 * u.code + j)).val.valid = true ∧ (identityAt s (4 * u.code + j)).val.kind = k ∧ (if k = .permanent then (identityAt s (4 * u.code + j)).val.digits = i.digits else (identityAt s (4 * u.code + j)).val.number = i.number)) ∧
      (∀ j < 4, (identityAt s (4 * u.code + j)).damaged = false)) ∧
    (∃ (u : Sub) (fn : Nat) (items : List PageItem) (i : PageItem) (k : IdKind) (s : State), Clean s ∧
      (s.sub u).state = .camped ∧
      (s.pgm.recs.get u).readOccasion = some fn ∧
      items = [i] ∧
      pageItemKind i = some k ∧
      ¬(∃ j < 4, (identityAt s (4 * u.code + j)).damaged = false ∧ (identityAt s (4 * u.code + j)).val.valid = true ∧ (identityAt s (4 * u.code + j)).val.kind = k ∧ (if k = .permanent then (identityAt s (4 * u.code + j)).val.digits = i.digits else (identityAt s (4 * u.code + j)).val.number = i.number)) ∧
      (∃ j < 4, (identityAt s (4 * u.code + j)).damaged = true ∧ (identityAt s (4 * u.code + j)).val.kind = k)) ∧
    (∃ (u : Sub) (fn : Nat) (items : List PageItem) (i : PageItem) (k : IdKind) (s : State), Clean s ∧
      (s.sub u).state = .camped ∧
      (s.pgm.recs.get u).readOccasion = some fn ∧
      items = [i] ∧
      pageItemKind i = some k ∧
      (∃ j < 4, (identityAt s (4 * u.code + j)).damaged = false ∧ (identityAt s (4 * u.code + j)).val.valid = true ∧ (identityAt s (4 * u.code + j)).val.kind = k ∧ (if k = .permanent then (identityAt s (4 * u.code + j)).val.digits = i.digits else (identityAt s (4 * u.code + j)).val.number = i.number)) ∧
      ¬(∀ d < i.span, i.base + d < (effParam s u).screenLen ∧ ((screenAt s (16 * u.code + (i.base + d) / 16)).damaged = true ∨ (screenAt s (16 * u.code + (i.base + d) / 16)).val.getLsbD ((i.base + d) % 16) = false))) :=
  ⟨⟨.A, 58, reading, by decide +kernel⟩,
   ⟨.A, 58, [anItem 0], anItem 0, .permanent, reading, clean_of_check _ (by decide +kernel), by unfold postable; decide +kernel, by decide +kernel⟩,
   ⟨.A, 58, [anItem 4], anItem 4, .permanent, reading, clean_of_check _ (by decide +kernel), by decide +kernel⟩,
   ⟨.A, 58, [{ anItem 0 with digits := [8] }], { anItem 0 with digits := [8] }, .permanent, reading, clean_of_check _ (by decide +kernel), by decide +kernel⟩,
   ⟨.A, 58, [anItem 0], anItem 0, .permanent, readingDamaged, clean_of_check _ (by decide +kernel), by decide +kernel⟩,
   ⟨.A, 58, [anItem 4], anItem 4, .permanent, blocking .A reading, clean_of_check _ (by decide +kernel), by decide +kernel⟩⟩

theorem witness_SummaryReplacesServingFields :
    (∃ (k : Key) (tCell : Nat) (g : Nat) (s : State), Clean s ∧
      CoreInv s ∧
      keyInRange k = true ∧
      tCell ∈ [32, 64, 128, 256] ∧
      g ∈ [1, 3, 5, 7]) ∧
    (∃ (k : Key) (tCell : Nat) (g : Nat) (s : State), Clean s ∧
      CoreInv s ∧
      (∀ u : Sub, (s.sub u).serving.map (fun v => v.key) ≠ some k) ∧
      keyInRange k = true ∧
      tCell ∈ [32, 64, 128, 256] ∧
      g ∈ [1, 3, 5, 7] ∧
      (∀ i < 64, (cellAt s i).valid = true → (cellAt s i).key ≠ k) ∧
      s.hxu.run.map (fun r => r.target) ≠ some k) :=
  ⟨⟨home, 256, 7, served .B .camped, clean_of_check _ (by decide +kernel), core_of_check _ (by unfold SizesInv; decide +kernel), by decide +kernel⟩,
   ⟨⟨0, 1023⟩, 32, 1, served .A .camped, clean_of_check _ (by decide +kernel), core_of_check _ (by unfold SizesInv; decide +kernel), by intro u; cases u <;> decide +kernel, by decide +kernel⟩⟩

theorem witness_MeasReportFiltersLevels :
    (∃ (u : Sub) (s : State), (s.sub u).state ≠ .detached) ∧
    (∃ (u : Sub) (cells : List RawCell) (c : RawCell) (i : Nat) (s : State), Clean s ∧
      CoreInv s ∧
      RangesInv s ∧
      (s.sub u).state ≠ .detached ∧
      cells = [c] ∧
      keyInRange c.key = true ∧
      i < 64 ∧
      (cellAt s i).valid = true ∧
      (cellAt s i).key = c.key) ∧
    (∃ (u : Sub) (c : RawCell) (s : State), Clean s ∧
      CoreInv s ∧
      (s.sub u).state ≠ .detached ∧
      keyInRange c.key = true ∧
      (∀ i < 64, (cellAt s i).valid = true → (cellAt s i).key ≠ c.key) ∧
      (effParam s u).discovery = true ∧
      s.ctb.frozen = false) ∧
    (∃ (u : Sub) (c : RawCell) (s : State), Clean s ∧
      CoreInv s ∧
      (s.sub u).state ≠ .detached ∧
      keyInRange c.key = true ∧
      (∀ i < 64, (cellAt s i).valid = true → (cellAt s i).key ≠ c.key) ∧
      ((effParam s u).discovery = false ∨ s.ctb.frozen = true)) ∧
    (∃ (u : Sub) (i : Nat) (s : State), Clean s ∧
      CoreInv s ∧
      (s.sub u).state ≠ .detached ∧
      i < 64 ∧
      (cellAt s i).valid = true ∧
      ((cellAt s i).part.get u).owned = true ∧
      (cellAt s i).serving.get u = false) ∧
    (∃ (u : Sub) (i : Nat) (s : State), Clean s ∧
      CoreInv s ∧
      i < 64 ∧
      (cellAt s i).valid = true ∧
      ((cellAt s i).part.get u).owned = true ∧
      (cellAt s i).serving.get u = true) ∧
    (∃ (u : Sub) (c : RawCell) (i : Nat) (j : Nat) (s : State), Clean s ∧
      CoreInv s ∧
      RangesInv s ∧
      (s.sub u).state = .camped ∧
      keyInRange c.key = true ∧
      i < 64 ∧
      (cellAt s i).valid = true ∧
      (cellAt s i).key = c.key ∧
      ((cellAt s i).part.get u).penalty = 0 ∧
      j < 64 ∧
      (cellAt s j).valid = true ∧
      (cellAt s j).serving.get u = true ∧
      i ≠ j ∧
      (cellAt s j).samples ≠ 0 ∧
      (((cellAt s j).part.get u).owned = true ∧ 1 < ((cellAt s j).part.get u).stale)) ∧
    (∃ (u : Sub) (c : RawCell) (i : Nat) (j : Nat) (v : Serving) (s : State), Clean s ∧
      CoreInv s ∧
      RangesInv s ∧
      (s.sub u).state = .connected ∧
      (s.sub u).serving = some v ∧
      keyInRange c.key = true ∧
      i < 64 ∧
      (cellAt s i).valid = true ∧
      (cellAt s i).key = c.key ∧
      ((cellAt s i).part.get u).penalty = 0 ∧
      j < 64 ∧
      (cellAt s j).valid = true ∧
      (cellAt s j).serving.get u = true ∧
      i ≠ j ∧
      (cellAt s j).samples ≠ 0 ∧
      (((cellAt s j).part.get u).owned = true ∧ 1 < ((cellAt s j).part.get u).stale) ∧
      ((cellAt s i).part.get u).reported = false) :=
  ⟨⟨.A, served .A .camped, by decide +kernel⟩,
   ⟨.A, [⟨home, 255⟩], ⟨home, 255⟩, 0, served .A .connected, clean_of_check _ (by decide +kernel), core_of_check _ (by unfold SizesInv; decide +kernel), ranges_of_check _ (by decide +kernel), by decide +kernel⟩,
   ⟨.A, ⟨⟨18, 0⟩, 255⟩, served .A .camped, clean_of_check _ (by decide +kernel), core_of_check _ (by unfold SizesInv; decide +kernel), by decide +kernel⟩,
   ⟨.B, ⟨⟨18, 0⟩, 255⟩, served .B .handover, clean_of_check _ (by decide +kernel), core_of_check _ (by unfold SizesInv; decide +kernel), by decide +kernel⟩,
   ⟨.A, 63, owning 63 1 (served .A .camped), clean_of_check _ (by decide +kernel), core_of_check _ (by unfold SizesInv; decide +kernel), by decide +kernel⟩,
   ⟨.A, 0, owning 0 1 (served .A .connected), clean_of_check _ (by decide +kernel), core_of_check _ (by unfold SizesInv; decide +kernel), by decide +kernel⟩,
   ⟨.A, ⟨spare, 255⟩, 63, 0, owning 0 2 (served .A .camped), clean_of_check _ (by decide +kernel), core_of_check _ (by unfold SizesInv; decide +kernel), ranges_of_check _ (by decide +kernel), by decide +kernel⟩,
   ⟨.A, ⟨spare, 255⟩, 63, 0, serving, owning 0 2 (served .A .connected), clean_of_check _ (by decide +kernel), core_of_check _ (by unfold SizesInv; decide +kernel), ranges_of_check _ (by decide +kernel), by decide +kernel⟩⟩

theorem witness_CampingOnAFoundCell :
    (∃ (r : AcqResult) (u : Sub) (s : State), Clean s ∧
      CoreInv s ∧
      acqInRange r = true ∧
      r.found = true ∧
      r.barred = false ∧
      r.owner = some (.sub u) ∧
      (s.sub u).state = .search ∧
      ((r.purpose = some .search ∧ (s.sub u).candidate = none) ∨ (r.purpose = some .reacquire ∧ (s.sub u).candidate = some r.key ∧ ∃ c ∈ s.rta.claims, c.kind = .reacquire ∧ c.owner = .sub u)) ∧
      s.ctb.frozen = false) ∧
    (∃ (r : AcqResult) (u : Sub) (s : State), Clean s ∧
      CoreInv s ∧
      acqInRange r = true ∧
      r.owner = some (.sub u) ∧
      r.purpose = some .reacquire ∧
      (s.sub u).state = .camped ∧
      (s.sub u).reselecting = true ∧
      (s.sub u).candidate = some r.key ∧
      (∃ c ∈ s.rta.claims, c.kind = .reacquire ∧ c.owner = .sub u) ∧
      r.found = true ∧
      r.barred = false ∧
      s.ctb.frozen = false) ∧
    (∃ (r : AcqResult) (u : Sub) (cause : Nat) (s : State), Clean s ∧
      CoreInv s ∧
      acqInRange r = true ∧
      r.owner = some (.sub u) ∧
      r.purpose = some .reacquire ∧
      (s.sub u).state = .camped ∧
      (s.sub u).reselecting = true ∧
      (s.sub u).candidate = some r.key ∧
      (∃ c ∈ s.rta.claims, c.kind = .reacquire ∧ c.owner = .sub u) ∧
      ((r.found = false ∧ cause = 0) ∨ (r.found = true ∧ r.barred = true ∧ cause = 1) ∨ (r.found = true ∧ r.barred = false ∧ cause = 3 ∧ s.ctb.frozen = true ∧ ∀ i < 64, (cellAt s i).valid = true → (cellAt s i).key ≠ r.key))) ∧
    (∃ (r : AcqResult) (s : State), (∃ u : Sub, (s.sub u).state = .search ∧ (s.sub u).candidate = none) ∧
      Clean s ∧
      CoreInv s ∧
      acqInRange r = true ∧
      r.found = true ∧
      r.barred = false ∧
      r.owner = some .common ∧
      r.purpose = some .search ∧
      s.ctb.frozen = false ∧
      s.rta.claims.length < 15) ∧
    (∃ (r : AcqResult) (s : State), ((r.owner = some .common ∧ ∃ u : Sub, (s.sub u).state = .search ∧ (s.sub u).candidate = none) ∨ ∃ u : Sub, r.owner = some (.sub u) ∧ (s.sub u).state = .search ∧ (s.sub u).candidate = none) ∧
      r.found = false ∧
      r.purpose = some .search) ∧
    (∃ (r : AcqResult) (s : State), ((r.owner = some .common ∧ ∃ u : Sub, (s.sub u).state = .search ∧ (s.sub u).candidate = none) ∨ ∃ u : Sub, r.owner = some (.sub u) ∧ (s.sub u).state = .search ∧ (s.sub u).candidate = none) ∧
      Clean s ∧
      acqInRange r = true ∧
      r.found = true ∧
      r.barred = true ∧
      r.purpose = some .search) ∧
    (∃ (r : AcqResult) (u : Sub) (s : State), Settled s ∧
      CoreInv s ∧
      acqInRange r = true ∧
      r.owner = some (.sub u) ∧
      r.purpose = some .reacquire ∧
      (s.sub u).state = .search ∧
      (s.sub u).candidate = some r.key ∧
      (∃ c ∈ s.rta.claims, c.kind = .reacquire ∧ c.owner = .sub u) ∧
      (r.found = false ∨ r.barred = true ∨ (s.ctb.frozen = true ∧ ∀ i < 64, (cellAt s i).valid = true → (cellAt s i).key ≠ r.key))) :=
  ⟨⟨found, .A, searching, clean_of_check _ (by decide +kernel), core_of_check _ (by unfold SizesInv; decide +kernel), by decide +kernel⟩,
   ⟨{ found with purpose := some .reacquire, key := target }, .A, reselectingTo, clean_of_check _ (by decide +kernel), core_of_check _ (by unfold SizesInv; decide +kernel), by decide +kernel⟩,
   ⟨{ found with purpose := some .reacquire, found := false, key := target }, .A, 0, reselectingTo, clean_of_check _ (by decide +kernel), core_of_check _ (by unfold SizesInv; decide +kernel), by decide +kernel⟩,
   ⟨{ found with owner := some .common }, searching, ⟨.A, by decide +kernel⟩, clean_of_check _ (by decide +kernel), core_of_check _ (by unfold SizesInv; decide +kernel), by decide +kernel⟩,
   ⟨{ found with found := false }, searching, .inr ⟨.A, by decide +kernel⟩, by decide +kernel⟩,
   ⟨{ found with barred := true }, searching, .inr ⟨.A, by decide +kernel⟩, clean_of_check _ (by decide +kernel), by decide +kernel⟩,
   ⟨{ found with purpose := some .reacquire, found := false, key := target }, .A, acquiring, settled_of_check (by unfold ClaimsInv; decide +kernel) (ranges_of_check _ (by decide +kernel)) (clean_of_check _ (by decide +kernel)) (by decide +kernel), core_of_check _ (by unfold SizesInv; decide +kernel), by decide +kernel⟩⟩

theorem witness_IndicationsNotTaken :
    (∃ (u : Option Sub) (fn : Nat) (s : State), (∀ b : Sub, u = some b → (s.sub b).state ≠ .camped ∨ (s.pgm.recs.get b).readOccasion ≠ some fn)) ∧
    (∃ (u : Option Sub) (s : State), (∀ b : Sub, u = some b → (s.sub b).state = .detached)) ∧
    (∃ (k : Key) (tCell : Nat) (g : Nat), (keyInRange k = false ∨ tCell ∉ [32, 64, 128, 256] ∨ g ∉ [1, 3, 5, 7])) ∧
    (∃ (r : AcqResult), (r.owner = none ∨ r.purpose = none ∨ (r.found = true ∧ (keyInRange r.key = false ∨ r.tCell ∉ [32, 64, 128, 256] ∨ r.g ∉ [1, 3, 5, 7])))) ∧
    (∃ (r : AcqResult) (s : State), (∀ b : Sub, r.owner = some (.sub b) → (s.sub b).candidate ≠ some r.key ∨ ∀ c ∈ s.rta.claims, ¬(c.kind = .reacquire ∧ c.owner = .sub b)) ∧
      r.purpose = some .reacquire ∧
      (r.found = false ∨ r.barred = false)) ∧
    (∃ (u : Option Sub) (k : Key) (status : Option SyncResult) (s : State), (u = none ∨ status = none ∨ keyInRange k = false ∨ ∀ b : Sub, u = some b → (s.sub b).state ∈ [.detached, .search, .camped])) ∧
    (∃ (u : Option Sub) (s : State), (∀ b : Sub, u = some b → (s.sub b).state ∈ [.detached, .search])) ∧
    (∃ (u : Sub) (seg : RawSegment) (s : State), (s.sub u).state ∉ [.detached, .search] ∧
      (seg.index = 0 ∨ 8 < seg.index ∨ seg.total = 0 ∨ 8 < seg.total ∨ seg.total < seg.index ∨ 152 < seg.payload.length ∨ seg.sender = [] ∨ 20 < seg.sender.length)) :=
  ⟨⟨none, 0, State.reset, by simp⟩,
   ⟨none, State.reset, by simp⟩,
   ⟨home, 33, 1, by decide +kernel⟩,
   ⟨{ found with owner := none }, by decide +kernel⟩,
   ⟨{ found with purpose := some .reacquire }, State.reset, by intro b; cases b <;> decide +kernel, by decide +kernel⟩,
   ⟨none, home, some .ok, State.reset, .inl rfl⟩,
   ⟨none, State.reset, by simp⟩,
   ⟨.A, ({ sender := [5], reference := 1, index := 9, total := 1, service := 255, payload := [] } : RawSegment), served .A .camped, by decide +kernel⟩⟩

theorem witness_IdleTextStored :
    (∃ (u : Sub) (g : RawSegment) (s : State), Clean s ∧
      (s.sub u).state ∉ [.detached, .search] ∧
      segmentShaped g = true ∧
      (g.service < (effParam s u).screenLen ∧ ((screenAt s (16 * u.code + g.service / 16)).damaged = true ∨ (screenAt s (16 * u.code + g.service / 16)).val.getLsbD (g.service % 16) = false)) ∧
      s.txs.slots.length = 48 ∧
      s.txs.groups.length = 12 ∧
      (∀ i < 12, ∀ h ∈ (groupAt s i).toList, keyed u g h = false) ∧
      freeCount s ≠ 0 ∧
      freeRecords s ≠ 0) ∧
    (∃ (u : Sub) (g : RawSegment) (i : Nat) (h : Group) (n : Nat) (s : State), Clean s ∧
      groupOf s u g i h ∧
      (s.sub u).state ∉ [.detached, .search] ∧
      segmentShaped g = true ∧
      (g.service < (effParam s u).screenLen ∧ ((screenAt s (16 * u.code + g.service / 16)).damaged = true ∨ (screenAt s (16 * u.code + g.service / 16)).val.getLsbD (g.service % 16) = false)) ∧
      h.total = g.total ∧
      g.index ∉ h.received ∧
      h.state = .opened n ∧
      freeCount s ≠ 0 ∧
      s.txs.slots.length = 48) ∧
    (∃ (u : Sub) (g : RawSegment) (i : Nat) (h : Group) (s : State), Clean s ∧
      groupOf s u g i h ∧
      (s.sub u).state ∉ [.detached, .search] ∧
      segmentShaped g = true ∧
      (g.service < (effParam s u).screenLen ∧ ((screenAt s (16 * u.code + g.service / 16)).damaged = true ∨ (screenAt s (16 * u.code + g.service / 16)).val.getLsbD (g.service % 16) = false)) ∧
      h.total = g.total ∧
      g.index ∈ h.received) ∧
    (∃ (u : Sub) (g : RawSegment) (i : Nat) (h : Group) (s : State), Clean s ∧
      groupOf s u g i h ∧
      (s.sub u).state ∉ [.detached, .search] ∧
      segmentShaped g = true ∧
      (g.service < (effParam s u).screenLen ∧ ((screenAt s (16 * u.code + g.service / 16)).damaged = true ∨ (screenAt s (16 * u.code + g.service / 16)).val.getLsbD (g.service % 16) = false)) ∧
      h.total ≠ g.total) ∧
    (∃ (u : Sub) (g : RawSegment) (i : Nat) (h : Group) (s : State), Clean s ∧
      groupOf s u g i h ∧
      (s.sub u).state ∉ [.detached, .search] ∧
      segmentShaped g = true ∧
      (g.service < (effParam s u).screenLen ∧ ((screenAt s (16 * u.code + g.service / 16)).damaged = true ∨ (screenAt s (16 * u.code + g.service / 16)).val.getLsbD (g.service % 16) = false)) ∧
      h.total = g.total ∧
      g.index ∉ h.received ∧
      isOpen h = false) ∧
    (∃ (u : Sub) (g : RawSegment) (s : State), Clean s ∧
      storeFullFor s u g ∧
      (s.sub u).state ∉ [.detached, .search] ∧
      segmentShaped g = true ∧
      (g.service < (effParam s u).screenLen ∧ ((screenAt s (16 * u.code + g.service / 16)).damaged = true ∨ (screenAt s (16 * u.code + g.service / 16)).val.getLsbD (g.service % 16) = false))) ∧
    (∃ (u : Sub) (g : RawSegment) (s : State), Clean s ∧
      (s.sub u).state ∉ [.detached, .search] ∧
      segmentShaped g = true ∧
      ¬(g.service < (effParam s u).screenLen ∧ ((screenAt s (16 * u.code + g.service / 16)).damaged = true ∨ (screenAt s (16 * u.code + g.service / 16)).val.getLsbD (g.service % 16) = false))) :=
  ⟨⟨.A, { sender := [5], reference := 1, index := 1, total := 1, service := 255, payload := [] }, served .A .camped, clean_of_check _ (by decide +kernel), by decide +kernel⟩,
   ⟨.A, { sender := [5], reference := 33, index := 3, total := 3, service := 255, payload := [] }, 11, openGroup, 1, withGroup 11 openGroup (served .A .camped), clean_of_check _ (by decide +kernel), by unfold groupOf; decide +kernel, by decide +kernel⟩,
   ⟨.A, { sender := [5], reference := 33, index := 1, total := 3, service := 255, payload := [] }, 11, openGroup, withGroup 11 openGroup (served .A .camped), clean_of_check _ (by decide +kernel), by unfold groupOf; decide +kernel, by decide +kernel⟩,
   ⟨.A, { sender := [5], reference := 33, index := 1, total := 8, service := 255, payload := [] }, 11, openGroup, withGroup 11 openGroup (served .A .camped), clean_of_check _ (by decide +kernel), by unfold groupOf; decide +kernel, by decide +kernel⟩,
   ⟨.A, { sender := [5], reference := 33, index := 3, total := 3, service := 255, payload := [] }, 11, { openGroup with state := .ready true }, withGroup 11 { openGroup with state := .ready true } (served .A .camped), clean_of_check _ (by decide +kernel), by unfold groupOf; decide +kernel, by decide +kernel⟩,
   ⟨.A, { sender := [5], reference := 33, index := 3, total := 3, service := 255, payload := [] }, crammed (withGroup 11 openGroup (served .A .camped)), clean_of_check _ (by decide +kernel), by unfold storeFullFor; refine ⟨?_, ?_, ?_, ?_⟩ <;> decide +kernel, by decide +kernel⟩,
   ⟨.A, { sender := [5], reference := 1, index := 1, total := 1, service := 255, payload := [] }, blocking .A (served .A .camped), clean_of_check _ (by decide +kernel), by decide +kernel⟩⟩

theorem witness_LinkGrantConnects :
    (∃ (u : Sub) (s : State), (s.sub u).state = .connecting) ∧
    (∃ (u : Sub) (s : State), (s.sub u).state ≠ .connecting) :=
  ⟨⟨.A, served .A .connecting, by decide +kernel⟩,
   ⟨.A, served .A .connected, by decide +kernel⟩⟩

theorem witness_LoopOrderHandled :
    (∃ (u : Sub) (s : State), (s.tab.param.get u).sound = true ∧
      (effParam s u).acceptLoop = true ∧
      (s.sub u).state ∈ [.connecting, .connected, .handover] ∧
      s.vpb.radioLoop = none) ∧
    (∃ (u : Sub) (b : Sub) (s : State), (s.tab.param.get u).sound = true ∧
      (effParam s u).acceptLoop = true ∧
      (s.sub u).state ∈ [.connecting, .connected, .handover] ∧
      s.vpb.radioLoop = some b) ∧
    (∃ (u : Sub) (close : Bool) (s : State), (s.tab.param.get u).sound = true ∧
      (effParam s u).acceptLoop = true ∧
      (s.sub u).state ∈ [.connecting, .connected, .handover] ∧
      s.vpb.radioLoop.isSome = close) ∧
    (∃ (u : Sub) (s : State), (s.tab.param.get u).sound = true ∧
      ((effParam s u).acceptLoop = false ∨ (s.sub u).state ∈ [.detached, .search, .camped])) :=
  ⟨⟨.A, accepting none, by decide +kernel⟩,
   ⟨.A, .A, accepting (some .A), by decide +kernel⟩,
   ⟨.A, false, accepting none, by decide +kernel⟩,
   ⟨.B, accepting none, by decide +kernel⟩⟩

theorem witness_DownlinkForwarding :
    (∃ (s : State), s.alc.up = true) ∧
    (∃ (s : State), s.alc.up = false) ∧
    (∃ (u : Sub) (i : Nat) (s : State), s.alc.up = true ∧
      i < 32 ∧
      (bearerAt s i).damaged = false ∧
      (bearerAt s i).check = .good ∧
      (bearerAt s i).val.state ≠ .idle ∧
      (bearerAt s i).val.owner = u ∧
      (bearerAt s i).val.cls ∈ [.signal, .data]) ∧
    (∃ (i : Nat) (s : State), s.alc.up = true ∧
      i < 32 ∧
      (bearerAt s i).damaged = true) ∧
    (∃ (u : Sub) (i : Nat) (s : State), i < 32 ∧
      (bearerAt s i).damaged = false ∧
      (bearerAt s i).check = .good ∧
      ((bearerAt s i).val.state = .idle ∨ (bearerAt s i).val.owner ≠ u)) ∧
    (∃ (u : Option Sub) (i : Nat), (u = none ∨ 31 < i)) ∧
    (∃ (u : Sub) (i : Nat) (text : Option RawSegment) (s : State), i < 32 ∧
      (bearerAt s i).damaged = false ∧
      (bearerAt s i).check = .good ∧
      (bearerAt s i).val.state ≠ .idle ∧
      (bearerAt s i).val.owner = u ∧
      (bearerAt s i).val.cls = .text ∧
      text.all (fun g => !segmentShaped g) = true) ∧
    (∃ (u : Sub) (i : Nat) (g : RawSegment) (s : State), Clean s ∧
      i < 32 ∧
      (bearerAt s i).damaged = false ∧
      (bearerAt s i).check = .good ∧
      (bearerAt s i).val.state ≠ .idle ∧
      (bearerAt s i).val.owner = u ∧
      (bearerAt s i).val.cls = .text ∧
      segmentShaped g = true ∧
      ¬(g.service < (effParam s u).screenLen ∧ ((screenAt s (16 * u.code + g.service / 16)).damaged = true ∨ (screenAt s (16 * u.code + g.service / 16)).val.getLsbD (g.service % 16) = false)) ∧
      (queueOf s u).length < 16) ∧
    (∃ (u : Sub) (i : Nat) (g : RawSegment) (s : State), Clean s ∧
      i < 32 ∧
      (bearerAt s i).damaged = false ∧
      (bearerAt s i).check = .good ∧
      (bearerAt s i).val.state ≠ .idle ∧
      (bearerAt s i).val.owner = u ∧
      (bearerAt s i).val.cls = .text ∧
      segmentShaped g = true ∧
      (g.service < (effParam s u).screenLen ∧ ((screenAt s (16 * u.code + g.service / 16)).damaged = true ∨ (screenAt s (16 * u.code + g.service / 16)).val.getLsbD (g.service % 16) = false)) ∧
      s.txs.slots.length = 48 ∧
      s.txs.groups.length = 12 ∧
      (∀ i < 12, ∀ h ∈ (groupAt s i).toList, keyed u g h = false) ∧
      freeCount s ≠ 0 ∧
      freeRecords s ≠ 0 ∧
      (queueOf s u).length < 16) ∧
    (∃ (u : Sub) (i : Nat) (s : State), s.alc.up = false ∧
      i < 32 ∧
      (bearerAt s i).damaged = false ∧
      (bearerAt s i).check = .good ∧
      (bearerAt s i).val.state ≠ .idle ∧
      (bearerAt s i).val.owner = u ∧
      (bearerAt s i).val.cls ∈ [.signal, .data]) ∧
    (∃ (i : Nat) (s : State), s.alc.up = false ∧
      i < 32 ∧
      (bearerAt s i).damaged = true) ∧
    (∃ (u : Sub) (k : Nat) (g : RawSegment) (i : Nat) (h : Group) (n : Nat) (s : State), Clean s ∧
      groupOf s u g i h ∧
      k < 32 ∧
      (bearerAt s k).damaged = false ∧
      (bearerAt s k).check = .good ∧
      (bearerAt s k).val.state ≠ .idle ∧
      (bearerAt s k).val.owner = u ∧
      (bearerAt s k).val.cls = .text ∧
      segmentShaped g = true ∧
      (g.service < (effParam s u).screenLen ∧ ((screenAt s (16 * u.code + g.service / 16)).damaged = true ∨ (screenAt s (16 * u.code + g.service / 16)).val.getLsbD (g.service % 16) = false)) ∧
      (queueOf s u).length < 16 ∧
      h.total = g.total ∧
      g.index ∉ h.received ∧
      h.state = .opened n ∧
      freeCount s ≠ 0 ∧
      s.txs.slots.length = 48) ∧
    (∃ (u : Sub) (k : Nat) (g : RawSegment) (i : Nat) (h : Group) (s : State), Clean s ∧
      groupOf s u g i h ∧
      k < 32 ∧
      (bearerAt s k).damaged = false ∧
      (bearerAt s k).check = .good ∧
      (bearerAt s k).val.state ≠ .idle ∧
      (bearerAt s k).val.owner = u ∧
      (bearerAt s k).val.cls = .text ∧
      segmentShaped g = true ∧
      (g.service < (effParam s u).screenLen ∧ ((screenAt s (16 * u.code + g.service / 16)).damaged = true ∨ (screenAt s (16 * u.code + g.service / 16)).val.getLsbD (g.service % 16) = false)) ∧
      (queueOf s u).length < 16 ∧
      h.total = g.total ∧
      g.index ∈ h.received) ∧
    (∃ (u : Sub) (k : Nat) (g : RawSegment) (s : State), Clean s ∧
      storeFullFor s u g ∧
      k < 32 ∧
      (bearerAt s k).damaged = false ∧
      (bearerAt s k).check = .good ∧
      (bearerAt s k).val.state ≠ .idle ∧
      (bearerAt s k).val.owner = u ∧
      (bearerAt s k).val.cls = .text ∧
      segmentShaped g = true ∧
      (g.service < (effParam s u).screenLen ∧ ((screenAt s (16 * u.code + g.service / 16)).damaged = true ∨ (screenAt s (16 * u.code + g.service / 16)).val.getLsbD (g.service % 16) = false)) ∧
      (queueOf s u).length < 16) :=
  ⟨⟨calm, by decide +kernel⟩,
   ⟨State.reset, by decide +kernel⟩,
   ⟨.A, 31, withBearer 31 { val := ⟨.A, .data, .active⟩, check := .good, damaged := false } (served .A .connected), by decide +kernel⟩,
   ⟨31, withBearer 31 { val := ⟨.A, .data, .idle⟩, check := .good, damaged := true } (served .A .connected), by decide +kernel⟩,
   ⟨.A, 31, State.reset, by decide +kernel⟩,
   ⟨some .A, 32, by decide +kernel⟩,
   ⟨.A, 31, none, withBearer 31 { val := ⟨.A, .text, .active⟩, check := .good, damaged := false } (served .A .connected), by decide +kernel⟩,
   ⟨.A, 31, { sender := [5], reference := 1, index := 1, total := 1, service := 255, payload := [] }, blocking .A (withBearer 31 { val := ⟨.A, .text, .active⟩, check := .good, damaged := false } (served .A .connected)), clean_of_check _ (by decide +kernel), by decide +kernel⟩,
   ⟨.A, 31, { sender := [5], reference := 1, index := 1, total := 1, service := 255, payload := [] }, withBearer 31 { val := ⟨.A, .text, .active⟩, check := .good, damaged := false } (served .A .connected), clean_of_check _ (by decide +kernel), by decide +kernel⟩,
   ⟨.A, 31, { withBearer 31 { val := ⟨.A, .data, .active⟩, check := .good, damaged := false } (served .A .connected) with alc := State.reset.alc }, by decide +kernel⟩,
   ⟨31, { withBearer 31 { val := ⟨.A, .data, .idle⟩, check := .good, damaged := true } (served .A .connected) with alc := State.reset.alc }, by decide +kernel⟩,
   ⟨.A, 31, { sender := [5], reference := 33, index := 3, total := 3, service := 255, payload := [] }, 11, openGroup, 1, withGroup 11 openGroup (withBearer 31 { val := ⟨.A, .text, .active⟩, check := .good, damaged := false } (served .A .connected)), clean_of_check _ (by decide +kernel), by unfold groupOf; decide +kernel, by decide +kernel⟩,
   ⟨.A, 31, { sender := [5], reference := 33, index := 1, total := 3, service := 255, payload := [] }, 11, openGroup, withGroup 11 openGroup (withBearer 31 { val := ⟨.A, .text, .active⟩, check := .good, damaged := false } (served .A .connected)), clean_of_check _ (by decide +kernel), by unfold groupOf; decide +kernel, by decide +kernel⟩,
   ⟨.A, 31, { sender := [5], reference := 33, index := 3, total := 3, service := 255, payload := [] }, crammed (withBearer 31 { val := ⟨.A, .text, .active⟩, check := .good, damaged := false } (served .A .connected)), clean_of_check _ (by decide +kernel), by unfold storeFullFor; refine ⟨?_, ?_, ?_, ?_⟩ <;> decide +kernel, by decide +kernel⟩⟩

theorem witness_DownlinkVoiceBuffered :
    (∃ (u : Sub) (i : Nat) (q : Nat) (p : Playout) (s : State), i < 32 ∧
      (bearerAt s i).damaged = false ∧
      (bearerAt s i).check = .good ∧
      (bearerAt s i).val.state ≠ .idle ∧
      (bearerAt s i).val.owner = u ∧
      (bearerAt s i).val.cls = .voice ∧
      q < 256 ∧
      s.vpb.codecLoop = false ∧
      s.vpb.radioLoop = none ∧
      s.vpb.play = some p ∧
      p.phase = .armed) ∧
    (∃ (u : Sub) (i : Nat) (q : Nat) (p : Playout) (n : Nat) (s : State), i < 32 ∧
      (bearerAt s i).damaged = false ∧
      (bearerAt s i).check = .good ∧
      (bearerAt s i).val.state ≠ .idle ∧
      (bearerAt s i).val.owner = u ∧
      (bearerAt s i).val.cls = .voice ∧
      q < 256 ∧
      s.vpb.codecLoop = false ∧
      s.vpb.radioLoop = none ∧
      s.vpb.play = some p ∧
      p.phase.next = some n ∧
      128 ≤ (q + 256 - n % 256) % 256) ∧
    (∃ (u : Sub) (i : Nat) (q : Nat) (p : Playout) (n : Nat) (s : State), i < 32 ∧
      (bearerAt s i).damaged = false ∧
      (bearerAt s i).check = .good ∧
      (bearerAt s i).val.state ≠ .idle ∧
      (bearerAt s i).val.owner = u ∧
      (bearerAt s i).val.cls = .voice ∧
      q < 256 ∧
      s.vpb.codecLoop = false ∧
      s.vpb.radioLoop = none ∧
      s.vpb.play = some p ∧
      p.phase.next = some n ∧
      (q + 256 - n % 256) % 256 < 128 ∧
      (∃ f ∈ p.buffer, f.seq = q)) ∧
    (∃ (u : Sub) (i : Nat) (q : Nat) (p : Playout) (n : Nat) (s : State), i < 32 ∧
      (bearerAt s i).damaged = false ∧
      (bearerAt s i).check = .good ∧
      (bearerAt s i).val.state ≠ .idle ∧
      (bearerAt s i).val.owner = u ∧
      (bearerAt s i).val.cls = .voice ∧
      q < 256 ∧
      s.vpb.codecLoop = false ∧
      s.vpb.radioLoop = none ∧
      s.vpb.play = some p ∧
      p.phase.next = some n ∧
      (q + 256 - n % 256) % 256 < 128 ∧
      (∀ f ∈ p.buffer, f.seq ≠ q) ∧
      p.buffer.length < p.depth) ∧
    (∃ (u : Sub) (i : Nat) (q : Nat) (p : Playout) (n : Nat) (s : State), i < 32 ∧
      (bearerAt s i).damaged = false ∧
      (bearerAt s i).check = .good ∧
      (bearerAt s i).val.state ≠ .idle ∧
      (bearerAt s i).val.owner = u ∧
      (bearerAt s i).val.cls = .voice ∧
      q < 256 ∧
      s.vpb.codecLoop = false ∧
      s.vpb.radioLoop = none ∧
      s.vpb.play = some p ∧
      p.phase.next = some n ∧
      (q + 256 - n % 256) % 256 < 128 ∧
      (∀ f ∈ p.buffer, f.seq ≠ q) ∧
      p.depth ≤ p.buffer.length) ∧
    (∃ (u : Sub) (i : Nat) (q : Nat) (s : State), i < 32 ∧
      (bearerAt s i).damaged = false ∧
      (bearerAt s i).check = .good ∧
      (bearerAt s i).val.state ≠ .idle ∧
      (bearerAt s i).val.owner = u ∧
      (bearerAt s i).val.cls = .voice ∧
      q < 256 ∧
      s.vpb.codecLoop = true ∧
      s.vpb.radioLoop = none ∧
      s.vpb.play.isSome = true) ∧
    (∃ (u : Sub) (i : Nat) (q : Nat) (s : State), i < 32 ∧
      (bearerAt s i).damaged = false ∧
      (bearerAt s i).check = .good ∧
      (bearerAt s i).val.state ≠ .idle ∧
      (bearerAt s i).val.owner = u ∧
      (bearerAt s i).val.cls = .voice ∧
      q < 256 ∧
      s.vpb.play = none) ∧
    (∃ (u : Sub) (i : Nat) (q : Nat) (b : Sub) (s : State), i < 32 ∧
      (bearerAt s i).damaged = false ∧
      (bearerAt s i).check = .good ∧
      (bearerAt s i).val.state ≠ .idle ∧
      (bearerAt s i).val.owner = u ∧
      (bearerAt s i).val.cls = .voice ∧
      q < 256 ∧
      s.vpb.codecLoop = true ∧
      s.vpb.radioLoop = some b ∧
      s.vpb.play.isSome = true) ∧
    (∃ (u : Sub) (i : Nat) (q : Nat) (b : Sub) (s : State), i < 32 ∧
      (bearerAt s i).damaged = false ∧
      (bearerAt s i).check = .good ∧
      (bearerAt s i).val.state ≠ .idle ∧
      (bearerAt s i).val.owner = u ∧
      (bearerAt s i).val.cls = .voice ∧
      q < 256 ∧
      s.vpb.codecLoop = false ∧
      s.vpb.radioLoop = some b ∧
      s.vpb.play.isSome = true) :=
  ⟨⟨.A, 31, 255, { playing with phase := .armed, buffer := [] }, withPlay { playing with phase := .armed, buffer := [] } voiceBearer, by decide +kernel⟩,
   ⟨.A, 31, 127, { playing with phase := .playing 255, buffer := [] }, 255, withPlay { playing with phase := .playing 255, buffer := [] } voiceBearer, by decide +kernel⟩,
   ⟨.A, 31, 126, { playing with phase := .playing 255, buffer := [⟨126, []⟩] }, 255, withPlay { playing with phase := .playing 255, buffer := [⟨126, []⟩] } voiceBearer, by decide +kernel⟩,
   ⟨.A, 31, 126, { playing with phase := .playing 255, buffer := [⟨1, []⟩, ⟨2, []⟩, ⟨3, []⟩] }, 255, withPlay { playing with phase := .playing 255, buffer := [⟨1, []⟩, ⟨2, []⟩, ⟨3, []⟩] } voiceBearer, by decide +kernel⟩,
   ⟨.A, 31, 126, { playing with phase := .playing 255, buffer := [⟨1, []⟩, ⟨2, []⟩, ⟨3, []⟩, ⟨4, []⟩] }, 255, withPlay { playing with phase := .playing 255, buffer := [⟨1, []⟩, ⟨2, []⟩, ⟨3, []⟩, ⟨4, []⟩] } voiceBearer, by decide +kernel⟩,
   ⟨.A, 31, 0, { withPlay { playing with phase := .armed, buffer := [] } voiceBearer with vpb := { (withPlay playing voiceBearer).vpb with codecLoop := true } }, by decide +kernel⟩,
   ⟨.A, 31, 0, voiceBearer, by decide +kernel⟩,
   ⟨.A, 31, 0, .A, looped true (some .A) (withPlay { playing with phase := .armed, buffer := [] } voiceBearer), by decide +kernel⟩,
   ⟨.A, 31, 0, .B, looped false (some .B) (withPlay { playing with phase := .armed, buffer := [] } voiceBearer), by decide +kernel⟩⟩

theorem witness_UplinkFramesQueued :
    (∃ (u : Sub) (i : Nat) (s : State), s.alc.up = true ∧
      i < 32 ∧
      (bearerAt s i).damaged = false ∧
      (bearerAt s i).check = .good ∧
      (bearerAt s i).val.state ≠ .idle ∧
      (bearerAt s i).val.owner = u ∧
      (bearerAt s i).val.cls ≠ .voice ∧
      (queueOf s u).length < 16) ∧
    (∃ (u : Sub) (i : Nat) (s : State), s.alc.up = true ∧
      i < 32 ∧
      (bearerAt s i).damaged = false ∧
      (bearerAt s i).check = .good ∧
      (bearerAt s i).val.state ≠ .idle ∧
      (bearerAt s i).val.owner = u ∧
      (bearerAt s i).val.cls ≠ .voice ∧
      16 ≤ (queueOf s u).length) ∧
    (∃ (u : Sub) (i : Nat) (s : State), s.alc.up = true ∧
      i < 32 ∧
      (bearerAt s i).damaged = false ∧
      (bearerAt s i).check = .good ∧
      ((bearerAt s i).val.state = .idle ∨ (bearerAt s i).val.owner ≠ u ∨ (bearerAt s i).val.cls = .voice)) ∧
    (∃ (u : Sub) (i : Nat) (s : State), s.alc.up = true ∧
      i < 32 ∧
      (bearerAt s i).damaged = true ∧
      (s.sub u).state ∈ [.connecting, .connected, .handover] ∧
      (queueOf s u).length < 16) ∧
    (∃ (u : Sub) (i : Nat) (s : State), s.alc.up = true ∧
      i < 32 ∧
      (bearerAt s i).damaged = true ∧
      (s.sub u).state ∈ [.detached, .search, .camped]) ∧
    (∃ (u : Option Sub) (i : Nat) (s : State), s.alc.up = true ∧
      (u = none ∨ 31 < i)) ∧
    (∃ (u : Sub) (s : State), s.alc.up = true ∧
      (s.sub u).state ∈ [.connecting, .connected, .handover] ∧
      (queueOf s u).length < 16) ∧
    (∃ (u : Sub) (s : State), s.alc.up = true ∧
      (s.sub u).state ∈ [.connecting, .connected, .handover] ∧
      16 ≤ (queueOf s u).length) ∧
    (∃ (u : Sub) (s : State), s.alc.up = true ∧
      (s.sub u).state ∈ [.detached, .search, .camped]) ∧
    (∃ (s : State), s.alc.up = true) ∧
    (∃ (l : Octets) (s : State), s.alc.up = true ∧
      checkHolds l = false) ∧
    (∃ (l : Octets) (s : State), s.alc.up = true ∧
      checkHolds l = true ∧
      (2 < (l.getD 0 255).toNat ∨ l.length < 8 + nat2 (l.getD 2 0) (l.getD 3 0))) :=
  ⟨⟨.A, 31, withBearer 31 { val := ⟨.A, .data, .active⟩, check := .good, damaged := false } (served .A .connected), by decide +kernel⟩,
   ⟨.A, 31, fullQueue .A (withBearer 31 { val := ⟨.A, .data, .active⟩, check := .good, damaged := false } (served .A .connected)), by decide +kernel⟩,
   ⟨.A, 31, withBearer 31 { val := ⟨.A, .voice, .active⟩, check := .good, damaged := false } (served .A .connected), by decide +kernel⟩,
   ⟨.A, 31, withBearer 31 { val := ⟨.A, .data, .idle⟩, check := .good, damaged := true } (served .A .connected), by decide +kernel⟩,
   ⟨.A, 31, withBearer 31 { val := ⟨.A, .data, .idle⟩, check := .good, damaged := true } calm, by decide +kernel⟩,
   ⟨some .A, 32, calm, by decide +kernel⟩,
   ⟨.A, served .A .handover, by decide +kernel⟩,
   ⟨.A, fullQueue .A (served .A .connected), by decide +kernel⟩,
   ⟨.A, served .A .camped, by decide +kernel⟩,
   ⟨calm, by decide +kernel⟩,
   ⟨[0, 0, 0, 0], calm, by decide +kernel⟩,
   ⟨badFrame, calm, by decide +kernel⟩⟩

theorem witness_LinkRequestHandled :
    (∃ (u : Sub) (s : State), s.alc.up = true ∧
      (s.sub u).state = .camped ∧
      holdsLink s u.other = false ∧
      (queueOf s u).length < 16 ∧
      (s.tab.param.get u).sound = true) ∧
    (∃ (u : Sub) (s : State), s.alc.up = true ∧
      (s.sub u).state = .camped ∧
      holdsLink s u.other = false ∧
      16 ≤ (queueOf s u).length) ∧
    (∃ (u : Sub) (s : State), s.alc.up = true ∧
      (s.sub u).state ∈ [.camped, .search] ∧
      holdsLink s u.other = true) ∧
    (∃ (u : Sub) (s : State), s.alc.up = true ∧
      (s.sub u).state ∈ [.connecting, .connected, .handover] ∧
      (queueOf s u).length < 16) ∧
    (∃ (u : Sub) (s : State), s.alc.up = true ∧
      (s.sub u).state ∈ [.connecting, .connected, .handover] ∧
      16 ≤ (queueOf s u).length) ∧
    (∃ (u : Sub) (s : State), s.alc.up = true ∧
      ((s.sub u).state = .detached ∨ (s.sub u).state = .search ∧ holdsLink s u.other = false)) ∧
    (∃ (s : State), s.alc.up = true) :=
  ⟨⟨.A, served .A .camped, by decide +kernel⟩,
   ⟨.A, fullQueue .A (served .A .camped), by decide +kernel⟩,
   ⟨.B, (served .A .connected).modSub .B (fun r => { r with state := .search }), by decide +kernel⟩,
   ⟨.A, served .A .connecting, by decide +kernel⟩,
   ⟨.A, fullQueue .A (served .A .connected), by decide +kernel⟩,
   ⟨.A, calm, by decide +kernel⟩,
   ⟨calm, by decide +kernel⟩⟩

theorem witness_ParamAndGlobalWrites :
    (∃ (first : Nat) (l : List ParamWrite) (s : State), s.alc.up = true ∧
      l ≠ [] ∧
      first + l.length ≤ 2) ∧
    (∃ (first : Nat) (l : List GlobalWrite) (w : GlobalWrite) (m : OccMode) (s : State), s.alc.up = true ∧
      l = [w] ∧
      first = 0 ∧
      w.mode = some m) ∧
    (∃ (first : Nat) (l : List GlobalWrite) (w : GlobalWrite) (s : State), s.alc.up = true ∧
      l = [w] ∧
      first = 0 ∧
      w.mode = none) :=
  ⟨⟨0, [paramAsWrite Param.default, paramAsWrite Param.default], calm, by decide +kernel⟩,
   ⟨0, [⟨656, -65, 9, some .accumulate⟩], ⟨656, -65, 9, some .accumulate⟩, .accumulate, calm, by decide +kernel⟩,
   ⟨0, [⟨164, 0, 4, none⟩], ⟨164, 0, 4, none⟩, calm, by decide +kernel⟩⟩

theorem witness_IdentityScreenAndClassWrites :
    (∃ (first : Nat) (l : List IdentityWrite) (s : State), s.alc.up = true ∧
      l ≠ [] ∧
      first + l.length ≤ 8 ∧
      s.tab.identity.length = 8 ∧
      (∀ w ∈ l, w.kind = some .temporary ∨ (w.kind = some .permanent ∧ 1 ≤ w.digits.length ∧ w.digits.length ≤ 15 ∧ ∀ d ∈ w.digits, d ≤ 9))) ∧
    (∃ (first : Nat) (l : List IdentityWrite) (s : State), s.alc.up = true ∧
      l ≠ [] ∧
      first + l.length ≤ 8 ∧
      ¬(∀ w ∈ l, w.kind = some .temporary ∨ (w.kind = some .permanent ∧ 1 ≤ w.digits.length ∧ w.digits.length ≤ 15 ∧ ∀ d ∈ w.digits, d ≤ 9))) ∧
    (∃ (first : Nat) (l : List (BitVec 16)) (s : State), s.alc.up = true ∧
      l ≠ [] ∧
      first + l.length ≤ 32 ∧
      s.tab.screen.length = 32) ∧
    (∃ (first : Nat) (l : List (Option EventClass)) (s : State), s.alc.up = true ∧
      l ≠ [] ∧
      first + l.length ≤ 22 ∧
      s.tab.eventClass.length = 32 ∧
      (∀ c ∈ l, c ≠ none)) ∧
    (∃ (first : Nat) (l : List (Option EventClass)) (s : State), s.alc.up = true ∧
      l ≠ [] ∧
      first + l.length ≤ 22 ∧
      (∃ c ∈ l, c = none)) :=
  ⟨⟨7, [⟨some .permanent, [1, 2, 3, 4, 5, 6, 7, 8, 9, 0, 1, 2, 3, 4, 5], 0, true⟩], calm, by decide +kernel⟩,
   ⟨0, [⟨some .permanent, [10], 0, true⟩], calm, by decide +kernel⟩,
   ⟨31, [0xffff#16], calm, by decide +kernel⟩,
   ⟨21, [some .suppressed], calm, by decide +kernel⟩,
   ⟨21, [none], calm, by decide +kernel⟩⟩

theorem witness_BearerWrites :
    (∃ (first : Nat) (l : List BearerWrite) (s : State), s.alc.up = true ∧
      l ≠ [] ∧
      first + l.length ≤ 32 ∧
      (¬(∀ w ∈ l, (bearerOfWrite w).isSome = true) ∨ ¬(∀ w ∈ l, w.state ≠ some .held))) ∧
    (∃ (first : Nat) (l : List BearerWrite) (s : State), s.alc.up = true ∧
      l ≠ [] ∧
      first + l.length ≤ 32 ∧
      (∀ w ∈ l, (bearerOfWrite w).isSome = true) ∧
      (∀ w ∈ l, w.state ≠ some .held) ∧
      (∀ k < l.length, (bearerAt s (first + k)).sound = true) ∧
      ((∃ k < l.length, (bearerAt s (first + k)).damaged = false ∧ (bearerAt s (first + k)).val.state = .held) ∨ (∃ w ∈ l, w.state = some .active ∧ ∃ o ∈ w.owner.toList, (s.sub o).state ∉ [.connecting, .connected]))) ∧
    (∃ (first : Nat) (l : List BearerWrite) (s : State), Clean s ∧
      s.alc.up = true ∧
      l ≠ [] ∧
      first + l.length ≤ 32 ∧
      s.tab.bearer.length = 32 ∧
      (∀ w ∈ l, (bearerOfWrite w).isSome = true) ∧
      (∀ w ∈ l, w.state ≠ some .held) ∧
      ¬(∃ k < l.length, (bearerAt s (first + k)).damaged = false ∧ (bearerAt s (first + k)).val.state = .held) ∧
      ¬(∃ w ∈ l, w.state = some .active ∧ ∃ o ∈ w.owner.toList, (s.sub o).state ∉ [.connecting, .connected]) ∧
      ¬((List.range 32).countP (fun i => if first ≤ i ∧ i < first + l.length then decide (((l[i - first]?).bind bearerOfWrite).map (fun b => (b.cls, b.state == .idle)) = some (.voice, false)) else (bearerAt s i).damaged == false && (bearerAt s i).val.cls == .voice && (bearerAt s i).val.state != .idle) ≤ 1)) ∧
    (∃ (first : Nat) (l : List BearerWrite) (s : State), Clean s ∧
      s.alc.up = true ∧
      l ≠ [] ∧
      first + l.length ≤ 32 ∧
      s.tab.bearer.length = 32 ∧
      (∀ w ∈ l, (bearerOfWrite w).isSome = true) ∧
      (∀ w ∈ l, w.state ≠ some .held) ∧
      ¬(∃ k < l.length, (bearerAt s (first + k)).damaged = false ∧ (bearerAt s (first + k)).val.state = .held) ∧
      ¬(∃ w ∈ l, w.state = some .active ∧ ∃ o ∈ w.owner.toList, (s.sub o).state ∉ [.connecting, .connected]) ∧
      ((List.range 32).countP (fun i => if first ≤ i ∧ i < first + l.length then decide (((l[i - first]?).bind bearerOfWrite).map (fun b => (b.cls, b.state == .idle)) = some (.voice, false)) else (bearerAt s i).damaged == false && (bearerAt s i).val.cls == .voice && (bearerAt s i).val.state != .idle) ≤ 1)) ∧
    (∃ (first : Nat) (w : BearerWrite) (b : Bearer) (s : State), s.alc.up = true ∧
      first < 32 ∧
      s.tab.bearer.length = 32 ∧
      bearerOfWrite w = some b ∧
      b.state = .idle ∧
      (bearerAt s first).check = .two ∧
      (bearerAt s first).damaged = false ∧
      (∀ i < 32, i ≠ first → (bearerAt s i).sound = true) ∧
      (classEntry s 8).sound = true ∧
      s.tab.global.sound = true ∧
      ((List.range 32).countP (fun i => i != first && (bearerAt s i).damaged == false && (bearerAt s i).val.cls == .voice && (bearerAt s i).val.state != .idle) ≤ 1)) :=
  ⟨⟨31, [⟨none, some .voice, some .active⟩], calm, by decide +kernel⟩,
   ⟨0, [⟨some .A, some .voice, some .active⟩], served .A .handover, by decide +kernel⟩,
   ⟨30, [⟨some .A, some .voice, some .active⟩, ⟨some .A, some .voice, some .active⟩], served .A .connected, clean_of_check _ (by decide +kernel), by decide +kernel⟩,
   ⟨31, [⟨some .A, some .voice, some .active⟩], served .A .connected, clean_of_check _ (by decide +kernel), by decide +kernel⟩,
   ⟨31, ⟨some .A, some .data, some .idle⟩, ⟨.A, .data, .idle⟩, withBearer 31 { val := ⟨.A, .voice, .held⟩, check := .two, damaged := false } calm, by decide +kernel⟩⟩

theorem witness_RequestsRefusedForTheirForm :
    (∃ (first : Nat) (l : List GlobalWrite) (s : State), s.alc.up = true ∧
      l ≠ [] ∧
      1 < first + l.length) ∧
    (∃ (first : Nat) (l : List ParamWrite) (s : State), s.alc.up = true ∧
      l ≠ [] ∧
      2 < first + l.length) ∧
    (∃ (first : Nat) (l : List IdentityWrite) (s : State), s.alc.up = true ∧
      l ≠ [] ∧
      8 < first + l.length) ∧
    (∃ (first : Nat) (l : List (BitVec 16)) (s : State), s.alc.up = true ∧
      l ≠ [] ∧
      32 < first + l.length) ∧
    (∃ (first : Nat) (l : List BearerWrite) (s : State), s.alc.up = true ∧
      l ≠ [] ∧
      32 < first + l.length) ∧
    (∃ (first : Nat) (l : List (Option EventClass)) (s : State), s.alc.up = true ∧
      l ≠ [] ∧
      22 < first + l.length) ∧
    (∃ (s : State), s.alc.up = true) :=
  ⟨⟨1, [⟨164, 0, 4, none⟩], calm, by decide +kernel⟩,
   ⟨2, [paramAsWrite Param.default], calm, by decide +kernel⟩,
   ⟨8, [⟨none, [], 0, true⟩], calm, by decide +kernel⟩,
   ⟨32, [0#16], calm, by decide +kernel⟩,
   ⟨32, [⟨none, none, none⟩], calm, by decide +kernel⟩,
   ⟨22, [none], calm, by decide +kernel⟩,
   ⟨calm, by decide +kernel⟩⟩

theorem witness_TableReadReturns :
    (∃ (table : Nat) (s : State), s.alc.up = true ∧
      9 < table) ∧
    (∃ (table : Nat) (first : Option Nat) (count : Nat) (x : TableId) (s : State), s.alc.up = true ∧
      TableId.ofCode table = some x ∧
      (count = 0 ∨ 16 < count ∨ first.any (fun i => decide (x.size ≤ i)) = true)) ∧
    (∃ (i : Nat) (count : Nat) (s : State), Clean s ∧
      s.alc.up = true ∧
      1 ≤ count ∧
      count ≤ 16 ∧
      i < 32) ∧
    (∃ (i : Nat) (s : State), s.alc.up = true ∧
      i < 32 ∧
      s.tab.screen.length = 32 ∧
      (screenAt s i).damaged = false ∧
      (screenAt s i).check = .one) ∧
    (∃ (i : Nat) (s : State), s.alc.up = true ∧
      i < 32 ∧
      s.tab.screen.length = 32 ∧
      (screenAt s i).damaged = false ∧
      (screenAt s i).check = .two) ∧
    (∃ (i : Nat) (s : State), s.alc.up = true ∧
      i < 32 ∧
      (screenAt s i).damaged = true) ∧
    (∃ (count : Nat) (s : State), Clean s ∧
      s.alc.up = true ∧
      1 ≤ count ∧
      count ≤ 16) ∧
    (∃ (i : Nat) (count : Nat) (s : State), Clean s ∧
      s.alc.up = true ∧
      1 ≤ count ∧
      count ≤ 16 ∧
      i < 2) ∧
    (∃ (i : Nat) (count : Nat) (s : State), Clean s ∧
      s.alc.up = true ∧
      1 ≤ count ∧
      count ≤ 16 ∧
      i < 8) ∧
    (∃ (i : Nat) (count : Nat) (s : State), Clean s ∧
      s.alc.up = true ∧
      1 ≤ count ∧
      count ≤ 16 ∧
      i < 64) ∧
    (∃ (table : Nat) (count : Nat) (s : State), s.alc.up = true ∧
      table ≤ 9 ∧
      1 ≤ count ∧
      count ≤ 16 ∧
      s.alc.cursor.2 < s.alc.cursor.1.size) ∧
    (∃ (i : Nat) (count : Nat) (s : State), s.alc.up = true ∧
      1 ≤ count ∧
      count ≤ 16 ∧
      i < 17) ∧
    (∃ (i : Nat) (count : Nat) (s : State), s.alc.up = true ∧
      1 ≤ count ∧
      count ≤ 16 ∧
      i < 2) ∧
    (∃ (i : Nat) (count : Nat) (s : State), s.alc.up = true ∧
      1 ≤ count ∧
      count ≤ 16 ∧
      i < 65) :=
  ⟨⟨10, calm, by decide +kernel⟩,
   ⟨9, some 65, 16, .fallback, calm, by decide +kernel⟩,
   ⟨31, 16, calm, clean_of_check _ (by decide +kernel), by decide +kernel⟩,
   ⟨31, { calm with tab := { calm.tab with screen := calm.tab.screen.set 31 { val := 5#16, check := .one, damaged := false } } }, by decide +kernel⟩,
   ⟨31, { calm with tab := { calm.tab with screen := calm.tab.screen.set 31 { val := 5#16, check := .two, damaged := false } } }, by decide +kernel⟩,
   ⟨31, { calm with tab := { calm.tab with screen := calm.tab.screen.set 31 { val := 5#16, check := .two, damaged := true } } }, by decide +kernel⟩,
   ⟨16, calm, clean_of_check _ (by decide +kernel), by decide +kernel⟩,
   ⟨1, 16, calm, clean_of_check _ (by decide +kernel), by decide +kernel⟩,
   ⟨7, 16, calm, clean_of_check _ (by decide +kernel), by decide +kernel⟩,
   ⟨63, 16, calm, clean_of_check _ (by decide +kernel), by decide +kernel⟩,
   ⟨9, 1, calm, by decide +kernel⟩,
   ⟨16, 16, calm, by decide +kernel⟩,
   ⟨1, 16, calm, by decide +kernel⟩,
   ⟨64, 16, calm, by decide +kernel⟩⟩

theorem witness_CellPutLists :
    (∃ (k : Key) (s : State), s.alc.up = true ∧
      keyInRange k = false) ∧
    (∃ (k : Key) (i : Nat) (s : State), Clean s ∧
      CoreInv s ∧
      s.alc.up = true ∧
      keyInRange k = true ∧
      i < 64 ∧
      (cellAt s i).valid = true ∧
      (cellAt s i).key = k) ∧
    (∃ (k : Key) (s : State), Clean s ∧
      CoreInv s ∧
      s.alc.up = true ∧
      keyInRange k = true ∧
      s.ctb.frozen = true ∧
      (∀ i < 64, (cellAt s i).valid = true → (cellAt s i).key ≠ k)) ∧
    (∃ (k : Key) (s : State), Clean s ∧
      CoreInv s ∧
      s.alc.up = true ∧
      keyInRange k = true ∧
      s.ctb.frozen = false ∧
      (∀ i < 64, (cellAt s i).valid = true → (cellAt s i).key ≠ k)) :=
  ⟨⟨⟨16384, 0⟩, calm, by decide +kernel⟩,
   ⟨home, 0, served .A .handover, clean_of_check _ (by decide +kernel), core_of_check _ (by unfold SizesInv; decide +kernel), by decide +kernel⟩,
   ⟨⟨16383, 1023⟩, served .A .handover, clean_of_check _ (by decide +kernel), core_of_check _ (by unfold SizesInv; decide +kernel), by decide +kernel⟩,
   ⟨⟨16383, 1023⟩, served .A .camped, clean_of_check _ (by decide +kernel), core_of_check _ (by unfold SizesInv; decide +kernel), by decide +kernel⟩⟩

theorem witness_CellDropRemoves :
    (∃ (k : Key) (s : State), s.alc.up = true ∧
      (k.channel > 16383 ∨ k.code > 1023)) ∧
    (∃ (k : Key) (s : State), Clean s ∧
      CoreInv s ∧
      s.alc.up = true ∧
      keyInRange k = true ∧
      (∀ i < 64, (cellAt s i).valid = true → (cellAt s i).key ≠ k)) ∧
    (∃ (k : Key) (i : Nat) (s : State), Clean s ∧
      CoreInv s ∧
      s.alc.up = true ∧
      keyInRange k = true ∧
      i < 64 ∧
      (cellAt s i).valid = true ∧
      (cellAt s i).key = k ∧
      (cellAt s i).pinned = true) ∧
    (∃ (k : Key) (i : Nat) (s : State), Clean s ∧
      CoreInv s ∧
      s.alc.up = true ∧
      keyInRange k = true ∧
      i < 64 ∧
      (cellAt s i).valid = true ∧
      (cellAt s i).key = k ∧
      (cellAt s i).pinned = false) :=
  ⟨⟨⟨0, 1024⟩, calm, by decide +kernel⟩,
   ⟨⟨16383, 1023⟩, served .A .camped, clean_of_check _ (by decide +kernel), core_of_check _ (by unfold SizesInv; decide +kernel), by decide +kernel⟩,
   ⟨home, 0, served .A .camped, clean_of_check _ (by decide +kernel), core_of_check _ (by unfold SizesInv; decide +kernel), by decide +kernel⟩,
   ⟨spare, 63, served .A .camped, clean_of_check _ (by decide +kernel), core_of_check _ (by unfold SizesInv; decide +kernel), by decide +kernel⟩⟩

theorem witness_AttachAndDetach :
    (∃ (s : State), s.alc.up = true) ∧
    (∃ (u : Sub) (s : State), s.alc.up = true ∧
      (s.sub u).state ≠ .detached) ∧
    (∃ (u : Sub) (k : Key) (s : State), s.alc.up = true ∧
      (s.sub u).state = .detached ∧
      keyInRange k = false) ∧
    (∃ (u : Sub) (k : Key) (s : State), s.alc.up = true ∧
      (s.sub u).state = .detached ∧
      keyInRange k = true ∧
      s.rta.claims.length < 16) ∧
    (∃ (u : Sub) (s : State), s.alc.up = true ∧
      (s.sub u).state = .detached) ∧
    (∃ (u : Sub) (s : State), s.alc.up = true ∧
      (s.sub u).state = .handover) ∧
    (∃ (u : Sub) (s : State), s.alc.up = true ∧
      (s.sub u).state ∉ [.detached, .handover]) :=
  ⟨⟨calm, by decide +kernel⟩,
   ⟨.A, served .A .camped, by decide +kernel⟩,
   ⟨.A, ⟨0, 1024⟩, calm, by decide +kernel⟩,
   ⟨.B, ⟨16383, 1023⟩, calm, by decide +kernel⟩,
   ⟨.A, calm, by decide +kernel⟩,
   ⟨.A, served .A .handover, by decide +kernel⟩,
   ⟨.A, served .A .connected, by decide +kernel⟩⟩

theorem witness_TextTakeRemovesHead :
    (∃ (s : State), s.alc.up = true ∧
      s.txs.ready = []) ∧
    (∃ (i : Nat) (l : List Nat) (g : Group) (s : State), s.alc.up = true ∧
      s.txs.ready = i :: l ∧
      groupAt s i = some g) :=
  ⟨⟨calm, by decide +kernel⟩,
   ⟨11, [], { openGroup with state := .ready true }, { withGroup 11 { openGroup with state := .ready true } calm with txs := { (withGroup 11 { openGroup with state := .ready true } calm).txs with ready := [11] } }, by decide +kernel⟩⟩

theorem witness_StatsTakeReturns :
    (∃ (clear : Nat) (s : State), s.alc.up = true ∧
      1 < clear) ∧
    (∃ (clear : Nat) (s : State), s.alc.up = true ∧
      clear ≤ 1 ∧
      s.tab.global.sound = true ∧
      s.alc.responses.length < 16) :=
  ⟨⟨2, calm, by decide +kernel⟩,
   ⟨1, calm, by decide +kernel⟩⟩

theorem witness_VoiceLoopRequest :
    (∃ (s : State), s.alc.up = true) ∧
    (∃ (b : Bool) (s : State), s.alc.up = true ∧
      s.vpb.codecLoop = b) ∧
    (∃ (b : Bool) (s : State), s.alc.up = true ∧
      s.vpb.codecLoop ≠ b) :=
  ⟨⟨calm, by decide +kernel⟩,
   ⟨false, calm, by decide +kernel⟩,
   ⟨true, calm, by decide +kernel⟩⟩

theorem witness_CheckInjectSpoils :
    (∃ (table : Nat) (s : State), s.alc.up = true ∧
      6 < table) ∧
    (∃ (table : Nat) (i : Nat) (n : Nat) (s : State), s.alc.up = true ∧
      table ≤ 6 ∧
      (n ∉ [1, 2] ∨ ¬(∃ x ∈ (TableId.ofCode table).toList, i < (if table = 5 then 22 else x.size)))) ∧
    (∃ (table : Nat) (i : Nat) (n : Nat) (s : State), s.alc.up = true ∧
      table = 6 ∧
      n ∈ [1, 2] ∧
      i < 64 ∧
      (cellAt s i).valid = false) ∧
    (∃ (table : Nat) (i : Nat) (n : Nat) (s : State), s.alc.up = true ∧
      table ≤ 5 ∧
      n ∈ [1, 2] ∧
      (∃ x ∈ (TableId.ofCode table).toList, i < (if table = 5 then 22 else x.size)) ∧
      [s.tab.global.damaged, (s.tab.param.get (if i = 0 then .A else .B)).damaged, (identityAt s i).damaged, (screenAt s i).damaged, (bearerAt s i).damaged, (classEntry s i).damaged].getD table false = true) ∧
    (∃ (table : Nat) (i : Nat) (n : Nat) (x : Check) (s : State), x = (if n = 1 then .one else .two) ∧
      s.alc.up = true ∧
      table ≤ 6 ∧
      n ∈ [1, 2] ∧
      (∃ x ∈ (TableId.ofCode table).toList, i < (if table = 5 then 22 else x.size)) ∧
      (table = 6 → (cellAt s i).valid = true) ∧
      [s.tab.global.damaged, (s.tab.param.get (if i = 0 then .A else .B)).damaged, (identityAt s i).damaged, (screenAt s i).damaged, (bearerAt s i).damaged, (classEntry s i).damaged].getD table false = false) :=
  ⟨⟨7, calm, by decide +kernel⟩,
   ⟨5, 22, 1, calm, by decide +kernel⟩,
   ⟨6, 63, 2, calm, by decide +kernel⟩,
   ⟨3, 31, 2, { calm with tab := { calm.tab with screen := calm.tab.screen.set 31 { val := 5#16, check := .two, damaged := true } } }, by decide +kernel⟩,
   ⟨5, 21, 2, .two, calm, rfl, by decide +kernel⟩⟩

theorem witness_WarmResetClears :
    (∃ (s : State), s.alc.up = true) :=
  ⟨calm, by decide +kernel⟩

theorem witness_TransmissionCompletes :
    (∃ (x : Sending) (s : State), s.alc.tx = some x ∧
      s.alc.up = true) ∧
    (∃ (s : State), s.alc.tx = none) :=
  ⟨⟨⟨.event startRecord, false⟩, { calm with alc := { calm.alc with tx := some ⟨.event startRecord, false⟩, events := [startRecord] } }, by decide +kernel⟩,
   ⟨calm, by decide +kernel⟩⟩
theorem witness_IdleTickCountsOnTheSleepClock :
    (∃ s : State, s.pending = [] ∧ s.hxu.notice = false ∧ s.ftb.counting = .sleep 327 ∧ s.ftb.elapsed + 1 < 327 ∧
      (∀ w, s.ftb.wake = some w → s.ftb.elapsed + 1 < w) ∧ ∀ n, s.ftb.watchdog = some n → 1 < n) :=
  ⟨{ State.reset with ftb := { Ftb.reset with elapsed := 325, wake := some 327, watchdog := some 2 } }, rfl, rfl, rfl, by decide,
    by simp, by simp⟩

theorem witness_StepRunsFrontCommand :
    ∃ (s : State) (l : List Instr), s.pending = .ready :: l := ⟨{ calm with pending := [.ready, .ready] }, _, rfl⟩

/-- A state with a handover running, a full uplink queue, a playout and an open text group; a command waits. -/
def busy : State :=
  { withPlay playing (withGroup 11 openGroup (fullQueue .A (served .A .handover))) with
    rta := { (served .A .handover).rta with claims := [{ aClaim with owner := .sub .B }], nextSerial := 1 }
    pending := [.ready] }

theorem witness_step_answers : ∃ t, step busy = .next t := ⟨_, rfl⟩

theorem witness_HandoverStandsTogether : HandoverInv busy := by
  refine ⟨fun u => ?_, rfl, rfl, by decide +kernel⟩
  cases u <;> decide +kernel

theorem witness_ServingCellStaysPinned : CoreInv busy := core_of_check _ (by unfold SizesInv; decide +kernel)

theorem witness_OneLinkAtATime : LinkInv busy ∧ HandoverInv busy :=
  ⟨witness_ServingCellStaysPinned.2.2.2.1, witness_HandoverStandsTogether⟩

theorem witness_ClaimsListKept : ClaimsInv busy := by
  refine ⟨by decide +kernel, List.pairwise_singleton _ _, ?_⟩
  simp [busy, aClaim, timedKind, Claim.items]

theorem witness_PlayoutBufferKept : PlayoutInv busy := by
  refine ⟨by decide +kernel, fun p hp => ?_⟩
  obtain rfl : playing = p := Option.some.inj hp
  refine ⟨by decide, by decide, by decide, by decide, by decide, ?_, by decide, ?_⟩
  · intro n hn
    obtain rfl : 255 = n := Option.some.inj hn
    decide
  · intro n hn
    simp [playing] at hn

theorem witness_TextStoreKept : TextInv (withGroup 11 openGroup calm) := by
  have hg : ∀ i g, groupAt (withGroup 11 openGroup calm) i = some g → i = 11 ∧ g = openGroup := by
    intro i g h
    have hi : i < 12 := by
      refine Nat.lt_of_not_le (fun hn => ?_)
      rw [groupAt, List.getD_eq_getElem?_getD,
        List.getElem?_eq_none (show (withGroup 11 openGroup calm).txs.groups.length ≤ i by
          rw [show (withGroup 11 openGroup calm).txs.groups.length = 12 by decide +kernel]; exact hn)] at h
      cases h
    have hall : ∀ j < 11, groupAt (withGroup 11 openGroup calm) j = none := by decide +kernel
    rcases Nat.lt_or_ge i 11 with hlt | hge
    · rw [hall i hlt] at h
      cases h
    · obtain rfl : i = 11 := by omega
      exact ⟨rfl, (Option.some.inj h).symm⟩
  refine ⟨by decide +kernel, by decide +kernel, by decide +kernel, fun i => ⟨fun h => ?_, fun ⟨g, h, ho⟩ => ?_⟩, ?_, ?_⟩
  · simp [withGroup, calm, State.reset] at h
  · rw [(hg i g h).2] at ho
    simp [openGroup, isOpen] at ho
  · intro i j g h hi hj _
    rw [(hg i g hi).1, (hg j h hj).1]
  · intro x hx
    simp [withGroup, calm, State.reset] at hx

theorem witness_RangesAndCapacitiesKept : FrameInv busy ∧ RangesInv (served .A .camped) ∧ SizesInv busy ∧ BoundsInv busy :=
  ⟨by unfold FrameInv; decide +kernel, ranges_of_check _ (by decide +kernel), by unfold SizesInv; decide +kernel,
    by decide +kernel, fun u => by cases u <;> decide +kernel, by decide +kernel, by decide +kernel, by decide +kernel⟩

theorem witness_WakeReqFollowsUrgentEvents :
    WakeInv { State.reset with pending := [.ready] } ∧ TransmitInv { State.reset with pending := [.ready] } ∧
      startRecord ∈ State.reset.alc.events ∧ ∃ t, step { State.reset with pending := [.ready] } = .next t ∧ t.alc.up = false := by
  refine ⟨?_, ?_, by decide, ⟨_, rfl, rfl⟩⟩
  · unfold WakeInv; decide +kernel
  · unfold TransmitInv; decide +kernel

theorem witness_TransmitterFollowsTheLink :
    TransmitInv { calm with alc := { calm.alc with tx := some ⟨.event startRecord, false⟩, events := [startRecord] } } := by
  unfold TransmitInv; decide +kernel

theorem witness_FrameNumberMovesAtFrameStarts : ∃ t, exec .ready calm = .next t ∧ startsFrame .ready = false := ⟨_, rfl, rfl⟩

theorem witness_IdentityAndScreenKept :
    ∃ s t : State, exec (.linkReadyChange true) s = .next t ∧ (screenAt s 31).damaged = true :=
  ⟨{ calm with tab := { calm.tab with screen := calm.tab.screen.set 31 { val := 5#16, check := .two, damaged := true } } }, _, rfl,
    by decide +kernel⟩

theorem witness_LinkDownDiscardsFrames : fromAl (.textTake 0) = true ∧ State.reset.alc.up = false := ⟨rfl, rfl⟩

theorem witness_SubscriptionStatesMove : HandoverInv calm ∧ ∃ t, exec .ready calm = .next t :=
  ⟨⟨fun u => by cases u <;> decide +kernel, rfl, rfl, by decide +kernel⟩, _, rfl⟩

/-- PostHandlesByClass: a class of each kind read clean, a damaged one, room and no room, a ROUTINE record to give way or none. -/
theorem witness_PostHandlesByClass :
    (classEntry calm EventKind.camped.code).val = .routine ∧ (classEntry calm EventKind.camped.code).check = .good ∧
      (classEntry calm EventKind.paged.code).val = .urgent ∧ calm.alc.events.length < 32 ∧
      (∃ s : State, (classEntry s 9).damaged = true ∧ 32 ≤ s.alc.events.length ∧ ∀ y ∈ s.alc.events, y.cls ≠ .routine) ∧
      ∃ s : State, (classEntry s 1).val = .urgent ∧ 32 ≤ s.alc.events.length ∧
        s.alc.events = [] ++ { startRecord with cls := .routine } :: List.replicate 31 startRecord :=
  ⟨by decide, by decide, by decide, by decide,
    ⟨{ calm with
        tab := { calm.tab with eventClass := calm.tab.eventClass.set 9 { val := .suppressed, check := .two, damaged := true } }
        alc := { calm.alc with events := List.replicate 32 startRecord } },
      by decide +kernel, by decide +kernel, by decide +kernel⟩,
    ⟨{ calm with alc := { calm.alc with events := { startRecord with cls := .routine } :: List.replicate 31 startRecord } },
      by decide +kernel, by decide +kernel, rfl⟩⟩

/-- Two candidates of one frame, by the power state. -/
def contested (p : Power) : State :=
  { served .A .connected with
    rta := { (served .A .connected).rta with claims := [aClaim] }
    ftb := { Ftb.reset with power := p } }

/-- Frame 511, claims of A and one search, each at its final frame, with the front end ON. -/
def deciding : State :=
  { served .A .camped with
    ftb := { Ftb.reset with fn := 511, power := .on }
    rta := { calm.rta with
      claims := [ClaimKind.pageWatch, .delivery, .reply, .measGap, .search].zipIdx.map (fun k =>
        { aClaim with kind := k.1, start := 511, length := 1, granted := 0, begun := false, serial := k.2 })
      nextSerial := 5 } }

theorem deciding_settled : Settled deciding :=
  settled_of_check (by unfold ClaimsInv; decide +kernel) (ranges_of_check _ (by decide +kernel)) (clean_of_check _ (by decide +kernel))
    (by decide +kernel)

theorem running_settled : Settled (served .A .handover) :=
  settled_of_check (by unfold ClaimsInv; decide +kernel) (ranges_of_check _ (by decide +kernel)) (clean_of_check _ (by decide +kernel))
    (by decide +kernel)

/-- The premises inside the conclusions of HandoverRestored and HandoverCommitted: a settled state with room in the claims list and
the event queue, and classes that let HO_FAILED and HO_DONE in. -/
theorem witness_handover_ends_with_room :
    Settled (served .A .handover) ∧ CoreInv (served .A .handover) ∧ (served .A .handover).rta.claims.length < 16 ∧
      (served .A .handover).alc.events.length < 31 ∧ postable (served .A .handover) .hoFailed ∧
      postable (served .A .handover) .hoDone :=
  ⟨running_settled, core_of_check _ (by unfold SizesInv; decide +kernel), by decide +kernel, by decide +kernel,
    by unfold postable; decide +kernel, by unfold postable; decide +kernel⟩

/-- A camped, its watch pending. -/
def watching : State :=
  (served .A .camped).modRta (fun r => { r with
    claims := [{ aClaim with kind := .pageWatch, start := 42, length := 1, granted := 0, begun := false }], nextSerial := 1 })

/-- The premises inside the conclusions of AcquisitionBudgetSpent and CampingOnAFoundCell (an initial acquisition and a reselection),
and of ParamAndGlobalWrites (a pending watch, in a settled state with room). -/
theorem witness_acquisitions_and_watch :
    (ContextInv acquiring ∧ Settled acquiring ∧ (acquiring.sub .A).candidate = some target ∧ acquiring.rta.claims = [aClaim]) ∧
    (Clean reselectingTo ∧ CoreInv reselectingTo ∧ (reselectingTo.sub .A).reselecting = true ∧
      (reselectingTo.sub .A).candidate = some target ∧ postable reselectingTo .reselectFailed) ∧
    Settled watching ∧ watching.rta.claims.length < 16 ∧ (watching.sub .A).state = .camped ∧
      ∃ c ∈ watching.rta.claims, c.kind = .pageWatch ∧ c.owner = .sub .A :=
  ⟨⟨(core_of_check acquiring (by unfold SizesInv; decide +kernel)).2.1,
      settled_of_check (by unfold ClaimsInv; decide +kernel) (ranges_of_check _ (by decide +kernel))
        (clean_of_check _ (by decide +kernel)) (by decide +kernel), by decide +kernel, by decide +kernel⟩,
    ⟨clean_of_check _ (by decide +kernel), core_of_check _ (by unfold SizesInv; decide +kernel), by decide +kernel,
      by decide +kernel, by unfold postable; decide +kernel⟩,
    settled_of_check (by unfold ClaimsInv; decide +kernel) (ranges_of_check _ (by decide +kernel))
      (clean_of_check _ (by decide +kernel)) (by decide +kernel), by decide +kernel, by decide +kernel, by decide +kernel⟩

/-- GrantGoesToTheWinner: two candidates in each power state, a frame without a candidate, and a settled state in which each kind
of one-frame claim stands at its final frame in a list with room. -/
theorem witness_GrantGoesToTheWinner :
    (∀ p ∈ [Power.on, .warming, .off], (candidates (contested p)).length = 2 ∧ (winner (contested p)).isSome = true ∧
      (contested p).ftb.power = p) ∧ winner State.reset = none ∧
    Settled deciding ∧ deciding.ftb.power = .on ∧ deciding.rta.claims.length < 16 ∧
    deciding.rta.claims.map (fun c => c.kind) = [.pageWatch, .delivery, .reply, .measGap, .search] ∧
    ∀ c ∈ deciding.rta.claims, c.owner = .sub .A ∧ fnDist c.start deciding.ftb.fn + 1 = c.length :=
  ⟨by decide +kernel, by decide +kernel, deciding_settled, by decide +kernel⟩

theorem forall_of_all {o : Option Nat} {p : Nat → Bool} (h : o.all p = true) (n : Nat) (hn : o = some n) : p n = true := by
  simpa [hn] using h

/-- One page watch of A at a start, the front end in a power state, sleep-counted. -/
def waiting (start elapsed : Nat) (p : Power) : State :=
  { calm with
    ftb := { Ftb.reset with power := p, elapsed := elapsed }
    rta := { calm.rta with
      claims := [{ aClaim with kind := .pageWatch, start := start, length := 1, granted := 0, begun := false }], nextSerial := 1 } }

/-- A REACQUIRE that starts now and an empty REPLY of this frame. -/
def beginning : State :=
  { calm with rta := { calm.rta with
    claims := [{ aClaim with granted := 31, begun := false },
      { aClaim with kind := .reply, length := 1, origin := .items [], granted := 0, begun := false, serial := 1 }], nextSerial := 2 } }

/-- The stages of a frame start in SleepCountedBoundary: a beginning REACQUIRE and an empty REPLY, a spent budget, a wake instant
that is absent, ahead and passed, and the power-down test with a claim too near and far enough, in each power state. -/
theorem witness_SleepCountedBoundary_stages :
    (ClaimsInv beginning ∧ ∀ c ∈ beginning.rta.claims, c.kind = .reacquire → c.granted < 32) ∧
    (∃ c ∈ acquiring.rta.claims, c.kind = .reacquire ∧ c.owner = .sub .A ∧ 32 ≤ c.granted) ∧
    (∀ p : Nat × Nat, p ∈ [(1, 0), (3, 326)] → SpansInCycle (waiting p.1 p.2 .off) ∧
      (waiting p.1 p.2 .off).ftb.counting = .sleep 327) ∧
    ticksToNext calm 0 = none ∧ ticksToNext (waiting 1 0 .off) 0 = some 0 ∧ ticksToNext (waiting 3 326 .off) 0 = some 655 ∧
    ticksToNext (waiting 1 164 .off) 0 = some 0 ∧ (effGlobal calm).lead = 164 ∧
    ∀ p ∈ [Power.off, .warming, .on], SpansInCycle (waiting 3 0 p) ∧ standingSet (waiting 3 0 p) = false ∧
      (∀ n, ticksToNext (waiting 3 0 p) 0 = some n → (effGlobal (waiting 3 0 p)).lead < n) ∧ ticksToNext (waiting 1 0 p) 0 = some 0 :=
  ⟨⟨by unfold ClaimsInv; decide +kernel, by decide +kernel⟩, by decide +kernel, by unfold SpansInCycle; decide +kernel,
    by decide +kernel, by decide +kernel, by decide +kernel, by decide +kernel, by decide +kernel, fun p _ => by
    refine ⟨by cases p <;> (unfold SpansInCycle; decide +kernel), by cases p <;> decide +kernel, fun n hn => ?_, by cases p <;> decide +kernel⟩
    exact of_decide_eq_true (forall_of_all (p := fun n => decide ((effGlobal (waiting 3 0 p)).lead < n))
      (by cases p <;> decide +kernel) n hn)⟩

/-- FN 5 adopted after 2, over the final frames of three claims and the start of a REACQUIRE; a search ends in FN 5 itself. -/
def jumping : State :=
  { served .A .camped with
    ftb := { Ftb.reset with fn := 5, power := .on }
    rta := { calm.rta with
      claims := [(ClaimKind.pageWatch, 3), (.reply, 4), (.measGap, 4), (.search, 5)].zipIdx.map (fun k =>
        { aClaim with kind := k.1.1, start := k.1.2, length := 1, granted := 0, begun := false, serial := k.2 }) ++
          [{ aClaim with start := 4, granted := 0, begun := false, serial := 4 }]
      nextSerial := 5 } }

/-- FrameMarkAdoption: a settled state with jumped claims, and each guard before its last step and at it. -/
theorem witness_FrameMarkAdoption_stages :
    (Settled jumping ∧ SpansInCycle jumping ∧
      (jumping.rta.claims.filter (fun c => decide (c.kind ≠ .reacquire ∧ 1 ≤ fnDist 2 ((c.start + c.length - 1) % 1024) ∧
        fnDist 2 ((c.start + c.length - 1) % 1024) < fnDist 2 jumping.ftb.fn))).length = 3) ∧
    (((served .A .connecting).sub .A).state = .connecting ∧ ((served .A .connecting).sub .A).guard = some 200) ∧
    (∃ s : State, (s.sub .A).state = .connecting ∧ (s.sub .A).guard = some 1) ∧
    (served .A .handover).hxu.run = some (running .A) ∧ 1 < (running .A).guard ∧ (calm.hxu.run = none) ∧
    ∃ (s : State) (r : HoRun), s.hxu.run = some r ∧ r.guard ≤ 1 :=
  ⟨⟨settled_of_check (by unfold ClaimsInv; decide +kernel) (ranges_of_check _ (by decide +kernel))
      (clean_of_check _ (by decide +kernel)) (by decide +kernel), by unfold SpansInCycle; decide +kernel, by decide +kernel⟩,
    ⟨by decide +kernel, by decide +kernel⟩,
    ⟨(served .A .connecting).modSub .A (fun r => { r with guard := some 1 }), by decide +kernel, by decide +kernel⟩,
    by decide +kernel, by decide +kernel, by decide +kernel,
    ⟨{ calm with hxu := { calm.hxu with run := some { running .A with guard := 1 } } }, _, rfl, by decide +kernel⟩⟩

/-- A's renewals put off, B searching with no chain. -/
def owing : State :=
  { (served .A .camped).modSub .B (fun r => { r with state := .search }) with
    pgm := { calm.pgm with recs := ⟨{ watchDue := true, gapDue := true }, {}⟩, searchDue := true } }

/-- A STORE_READY due for A in a link state. -/
def offering (s : State) : State := s.modSub .A (fun r => { r with notice := .readyDue })

/-- FrontEndFaults: a lost GRANT of a claim of a settled state, renewals put off in a settled state with room, a STORE_READY that
is due with room in the queue and without, one that waits in a REPLY, and an expiry at frame 128. -/
theorem witness_FrontEndFaults_stages :
    (Settled deciding ∧ ∀ n < 5, ∃ c ∈ deciding.rta.claims, c.serial = n) ∧
    (Settled owing ∧ owing.rta.claims.length < 10 ∧ (owing.pgm.recs.get .A).watchDue = true ∧
      (owing.pgm.recs.get .A).gapDue = true ∧ owing.pgm.searchDue = true ∧ inSearch owing .B = true ∧
      (owing.pgm.recs.get .B).chain = none) ∧
    (∀ s ∈ [offering (served .A .connected), offering (fullQueue .A (served .A .connected))],
      (s.sub .A).state = .connected ∧ (s.sub .A).notice = .readyDue ∧ s.rta.claims = []) ∧
    (queueOf (fullQueue .A (served .A .connected)) .A).length = 16 ∧
    (∃ s : State, ∃ c ∈ s.rta.claims, c.kind = .reply ∧ c.owner = .sub .A ∧ .storeReady .A ∈ c.items) ∧
    ∃ s : State, s.ftb.fn % 128 = 0 ∧ s.txs.groups.length = 12 ∧ postable s .textReady ∧ s.alc.events.length < 21 ∧
      groupAt s 11 = some openGroup ∧ openGroup.state = .opened 1 :=
  ⟨⟨deciding_settled, by decide +kernel⟩,
    ⟨settled_of_check (by unfold ClaimsInv; decide +kernel) (ranges_of_check _ (by decide +kernel))
      (clean_of_check _ (by decide +kernel)) (by decide +kernel), by decide +kernel⟩,
    by decide +kernel, by decide +kernel,
    ⟨{ calm with rta := { calm.rta with claims := [{ aClaim with kind := .reply, origin := .items [.storeReady .A] }] } },
      by decide +kernel⟩,
    { withGroup 11 openGroup calm with ftb := { Ftb.reset with fn := 128 } }, by decide +kernel, by decide +kernel,
    by unfold postable; decide +kernel, by decide +kernel, by decide +kernel, by decide +kernel⟩

/-! ## Worked cases of the spec -/

/-- The state after a command. -/
def after (c : Instr) (s : State) : State :=
  match exec c s with
  | .next t => t
  | .fault _ => s
  | .refused _ => s

/-- 1.2.1: entry 0 TEMPORARY, entry 1 PERMANENT 901234, entry 2 PERMANENT 31007: K is 114, and the occasion is 58 for T 128
and G 5. -/
theorem test_paging_key_of_the_worked_case :
    let s := after (.tableWriteIdentity 1 0 [⟨some .temporary, [], 7, true⟩, ⟨some .permanent, [9, 0, 1, 2, 3, 4], 0, true⟩,
      ⟨some .permanent, [3, 1, 0, 0, 7], 0, true⟩]) calm
    (s.sub .A).pagingKey = 114 ∧ (s.sub .B).pagingKey = 0 ∧ occasionOf 114 5 128 = 58 := by decide +kernel

/-- R95: with O 58 and T 128, a watch placed at FN 58 goes to FN 186, one placed at FN 1000 to FN 58, 82 frames ahead. -/
theorem test_next_occasion : occasionDist 58 58 128 = 128 ∧ occasionDist 58 1000 128 = 82 := by decide

/-- R5: k_idle 9, connect guard 20 and preferred cycle 100 are stored as 7, 50 and 64, and the answer is DONE_CLAMPED. -/
theorem test_param_write_clamps :
    let s := after (.tableWriteParam 3 1 [{ paramAsWrite Param.default with kIdle := 9, connectGuard := 20, prefCycle := 100 }]) calm
    ((effParam s .B).kIdle, (effParam s .B).connectGuard, (effParam s .B).prefCycle) = (7, 50, 64) ∧
      s.alc.tx = some ⟨.response { tag := 3, code := 1, status := .doneClamped, payload := .none }, false⟩ := by decide +kernel

/-- 2.6: r 52 before FN 1020 gives 328 ticks and r 20; r 24 before FN 0 gives 327 - 20 = 307 ticks and r 92. -/
theorem test_sleep_frame_lengths :
    let s (fn acc : Nat) : State :=
      { calm with tab := { calm.tab with global := .fresh { GlobalEntry.default with drift := -20 } }, ftb := { Ftb.reset with fn := fn, acc := acc } }
    ((after .sleepBoundary (s 1019 52)).ftb.counting, (after .sleepBoundary (s 1019 52)).ftb.acc) = (.sleep 328, 20) ∧
      ((after .sleepBoundary (s 1023 24)).ftb.counting, (after .sleepBoundary (s 1023 24)).ftb.acc) = (.sleep 307, 92) := by
  decide +kernel

/-- 2.7, step 4: the first mark carries 4 at tick 6 of FN 1: the slip counter is 1, FN_SLIP has d +3 and the expected number 1. -/
theorem test_first_mark_slip :
    let s := after (.frameMark 4) { State.reset with ftb := { Ftb.reset with fn := 1, power := .on, counting := .sleep 328, elapsed := 6,
                                                                             comparePending := true, watchdog := some 500 } }
    s.ftb.fn = 4 ∧ s.ftb.cnt.slips = 1 ∧ s.alc.events.tail.map (fun e => (e.kind, e.arg1, e.arg2)) = [(.fnSlip, 3, 1)] := by
  decide +kernel

/-- R58: channel 1203, cell code 2 belongs to set 5. -/
theorem test_set_of_a_cell : setOf ⟨1203, 2⟩ = 5 := by decide

/-- 5.8: B CAMPED, k_idle 2. The fourth report, n 60 on F -807, gives -826. -/
theorem test_filter_rounds_down :
    let s : State := { served .B .camped with ctb := { (served .B .camped).ctb with cells := (served .B .camped).ctb.cells.set 63 { aCell spare with level := -807 } } }
    (cellAt (after (.measReport (some .B) 0 [⟨spare, 60⟩]) s) 63).level = -826 ∧
      (cellAt (after (.measReport (some .B) 0 [⟨spare, 60⟩]) s) 63).samples = 4 := by decide +kernel

/-- 8.4.1: map length 200, code 195 of A set, word 1 damaged: code 20 counts as clear, 194 and 195 are blocked, 196 to 199
permitted, 198 to 201 blocked. -/
theorem test_screening_with_a_damaged_word :
    let s : State := { calm with tab := { calm.tab with
      param := calm.tab.param.set .A (.fresh { Param.default with screenLen := 200 })
      screen := (calm.tab.screen.set 12 (.fresh 8#16)).set 1 { val := 16#16, check := .two, damaged := true } } }
    ((screeningCheck .A 20 1 s).2, (screeningCheck .A 194 2 s).2, (screeningCheck .A 196 4 s).2, (screeningCheck .A 198 4 s).2) =
      (true, false, true, false) := by decide +kernel

/-- 10.11, steps 15 and 16: frame 49 finds 45 to 48 in a buffer of depth 4: 45 is dropped and counted, next-to-play is 46. -/
theorem test_voice_overflow :
    let s := after (.downlinkTraffic (some .A) 31 49 [] none)
      (withPlay { playing with phase := .playing 45, buffer := [⟨45, []⟩, ⟨46, []⟩, ⟨47, []⟩, ⟨48, []⟩] } voiceBearer)
    s.vpb.play.map (fun p => (p.phase, p.buffer.map (fun f => f.seq))) = some (.playing 46, [46, 47, 48, 49]) ∧
      s.vpb.cnt.overflow = 1 := by decide +kernel

/-- 10.11, step 13: frame 44 is missing: the last frame at -6 dB, run 1, next-to-play 45. -/
theorem test_voice_concealment :
    let s := after (.codecPeriod []) (withPlay { playing with phase := .playing 44, buffer := [], last := some [43] } calm)
    s.out.codec = [.conceal [43] 1] ∧ s.vpb.play.map (fun p => (p.phase, p.run)) = some (.playing 45, 1) := by decide +kernel

/-- 1.7, step 1: LINK_REQUEST for A CAMPED: CONNECTING, guard 200, the queue holds one frame. -/
theorem test_link_request_connects :
    let s := after (.linkRequest (some .A) []) (served .A .camped)
    (s.sub .A).state = .connecting ∧ (s.sub .A).guard = some 200 ∧ (queueOf s .A).length = 1 ∧ s.rta.connected.a = true := by
  decide +kernel

/-- 7.7: a commit with 16 frames queued: HANDOVER_DONE at the head, the tail displaced and counted, the entry of the target
serving. -/
theorem test_commit_displaces_the_tail :
    let s := after (.syncStatus (some .A) target (some .ok) 12) (fullQueue .A (served .A .handover))
    (queueOf s .A).head? = some (.handoverDone target 12) ∧ (queueOf s .A).length = 16 ∧ s.brt.cnt.tailDisplacements = 1 ∧
      (cellAt s 4).serving.a = true ∧ (cellAt s 0).serving.a = false := by decide +kernel

/-- 4.9, step 10: a CELL_PUT of a cell that is not held is answered FROZEN while a handover runs. -/
theorem test_cell_put_frozen :
    (after (.cellPut 5 ⟨2000, 5⟩ false 60) (served .A .handover)).alc.tx =
      some ⟨.response { tag := 5, code := 3, status := .frozen, payload := .none }, false⟩ := by decide +kernel

/-- 6.10, step 4: a found cell of a result that is not taken, its barred flag clear: counted, and nothing written (R107). -/
theorem test_discarded_result_writes_no_clear_bar :
    let s := modCell 0 (fun c => { c with barred := true }) (served .A .camped)
    let t := after (.acqResult { found with purpose := some .reacquire }) s
    (cellAt t 0).barred = true ∧ t.ctb.plru = s.ctb.plru ∧ t.pgm.cnt.resultsDiscarded = 1 := by decide +kernel

/-- R52, R55: a DELIVERY from 1 to 4 that loses frames 1 and 2 to a jump from 0 to 3 stays, with two frames counted lost. -/
theorem test_jumped_delivery_frames_are_lost :
    let c := { aClaim with kind := ClaimKind.delivery, start := 1, length := 4, granted := 0, begun := false }
    let t := jumpClaims 0 3 { calm with ftb := { Ftb.reset with fn := 3 }, rta := { calm.rta with claims := [c] } }
    t.rta.claims = [c] ∧ t.rta.cnt.deliveryFramesLost = 2 ∧ t.rta.cnt.jumped = 0 := by decide +kernel

/-- 3.8, FN 106: a camped subscription's watch at its starvation limit is decided at 5, below it at 2 (R41, R47). -/
theorem test_watch_priority :
    priority ((served .B .camped).modSub .B (fun r => { r with missed := 3 })) (.sub .B) .pageWatch = 5 ∧
      priority (served .B .camped) (.sub .B) .pageWatch = 2 := by decide +kernel

/-! ## Words and well-formedness -/

/-- The table gives no row any bits, so a word changes nothing. -/
theorem test_no_word_spells_a_command : decodeTableWord 8 1 = none ∧ State.reset.withFetchWord 8 1 = State.reset := ⟨rfl, rfl⟩

theorem test_fn_field_refused : (Instr.frameMark 1024).wellFormed = false := by decide
theorem test_record_refused : (Instr.groupExpiry 12).wellFormed = false := by decide
theorem test_page_refused :
    (Instr.page none 1024 []).wellFormed = false ∧ (Instr.page none 0 (List.replicate 256 (anItem 0))).wellFormed = false ∧
      (Instr.page none 0 [{ anItem 0 with digits := [15] }]).wellFormed = false ∧
      (Instr.page none 0 [{ anItem 0 with digits := List.replicate 17 1 }]).wellFormed = false ∧
      (Instr.page none 0 [{ anItem 0 with number := 4294967296 }]).wellFormed = false ∧
      (Instr.page none 0 [{ anItem 0 with base := 256 }]).wellFormed = false ∧
      (Instr.page none 0 [{ anItem 0 with span := 256 }]).wellFormed = false ∧
      (Instr.page none 0 [{ anItem 0 with follows := 256 }]).wellFormed = false ∧
      (Instr.page none 0 [{ anItem 0 with ref := 16 }]).wellFormed = false ∧
      (Instr.page none 0 [anItem 0]).wellFormed = true := by decide +kernel
theorem test_summary_refused :
    (Instr.summary ⟨65536, 0⟩ 32 1 0 false).wellFormed = false ∧ (Instr.summary ⟨0, 65536⟩ 32 1 0 false).wellFormed = false ∧
      (Instr.summary home 65536 1 0 false).wellFormed = false ∧ (Instr.summary home 32 256 0 false).wellFormed = false ∧
      (Instr.summary home 32 1 65536 false).wellFormed = false := by decide
theorem test_report_refused :
    (Instr.measReport none 1024 []).wellFormed = false ∧ (Instr.measReport none 0 (List.replicate 256 ⟨home, 0⟩)).wellFormed = false ∧
      (Instr.measReport none 0 [⟨home, 256⟩]).wellFormed = false := by decide +kernel
theorem test_results_refused :
    (Instr.acqResult { found with area := 65536 }).wellFormed = false ∧ (Instr.acqResult { found with tCell := 65536 }).wellFormed = false ∧
      (Instr.acqResult { found with g := 256 }).wellFormed = false ∧ (Instr.syncStatus none home none 256).wellFormed = false := by decide
theorem test_segment_refused :
    (Instr.idleText none 0 ⟨[15], 0, 0, 0, 0, []⟩).wellFormed = false ∧ (Instr.idleText none 0 ⟨[], 256, 0, 0, 0, []⟩).wellFormed = false ∧
      (Instr.idleText none 0 ⟨[], 0, 256, 0, 0, []⟩).wellFormed = false ∧ (Instr.idleText none 0 ⟨[], 0, 0, 256, 0, []⟩).wellFormed = false ∧
      (Instr.idleText none 0 ⟨[], 0, 0, 0, 256, []⟩).wellFormed = false := by decide
theorem test_downlink_refused :
    (Instr.handoverOrder none home 256).wellFormed = false ∧ (Instr.downlinkControlOther none 4 []).wellFormed = false ∧
      (Instr.downlinkControlOther none 256 []).wellFormed = false ∧ (Instr.downlinkTraffic none 256 0 [] none).wellFormed = false ∧
      (Instr.downlinkTraffic none 0 256 [] none).wellFormed = false := by decide
theorem test_uplink_refused :
    (Instr.alFrameRejected []).wellFormed = false ∧ (Instr.uplinkTraffic none 256 []).wellFormed = false ∧
      (Instr.uplinkControlOther none 0 []).wellFormed = false := by decide
theorem test_requests_refused :
    (Instr.tableWriteScreen 256 0 [0#16]).wellFormed = false ∧ (Instr.tableWriteScreen 0 255 [0#16]).wellFormed = false ∧
      (Instr.tableWriteScreen 0 0 []).wellFormed = false ∧ (Instr.tableWriteIdentity 0 0 [⟨none, [15], 0, true⟩]).wellFormed = false ∧
      (Instr.tableRead 0 0 (some 255) 1).wellFormed = false ∧ (Instr.tableRead 0 256 none 1).wellFormed = false ∧
      (Instr.subAttach 0 none (some ⟨65536, 0⟩)).wellFormed = false ∧ (Instr.statsTake 0 256).wellFormed = false ∧
      (Instr.checkInject 0 0 256 1).wellFormed = false ∧ (Instr.malformedRequest 0 256).wellFormed = false ∧
      (Instr.tableWriteNoSuchTable 0 5).wellFormed = false := by decide

end Sys2Proof.Tests
end

section
/-! READY (R25, O23). What a sent GRANT leaves of the front end comes first: while it is powered and keeps no wake instant,
every operation behind `grantSent` leaves the Frame Timebase as it is, and each of them only adds frames on the FL. -/

namespace Sys2Proof.Machine

/-- From `s` to `t` a powered front end without a wake instant stays as it is (R22 computes the instant only while OFF), and
the FL loses no frame. -/
structure FrontEndKept (s t : State) : Prop where
  ftb_eq : s.ftb.power ≠ .off → s.ftb.wake = none → t.ftb = s.ftb
  fl_prefix : s.out.fl <+: t.out.fl

theorem FrontEndKept.refl (s : State) : FrontEndKept s s := ⟨fun _ _ => rfl, List.prefix_rfl⟩

theorem FrontEndKept.trans {s t u : State} (h : FrontEndKept s t) (k : FrontEndKept t u) : FrontEndKept s u where
  ftb_eq hp hw := by
    have ht : t.ftb = s.ftb := h.ftb_eq hp hw
    exact (k.ftb_eq (by rwa [ht]) (by rwa [ht])).trans ht
  fl_prefix := h.fl_prefix.trans k.fl_prefix

/-- An operation whose list of changes names neither the timebase nor the FL keeps the front end. -/
theorem changes.frontEndKept {l : List Piece} {s t x : State} (c : changes l s t) (h : FrontEndKept x s)
    (hl : (l.contains (.part .ftb) || l.contains (.part .fl)) = false := by decide) : FrontEndKept x t := by
  rw [Bool.or_eq_false_iff] at hl
  have hftb : t.ftb = s.ftb := c.keep (.part .ftb) (by simpa using hl.1)
  have hfl : t.out.fl = s.out.fl := c.keep (.part .fl) (by simpa using hl.2)
  exact h.trans ⟨fun _ _ => hftb, hfl ▸ List.prefix_rfl⟩

/-- A list of changes within the parts that a frame names gives the frame. -/
theorem changes.onlyParts {l : List Piece} {m : List Part} {s t : State} (h : changes l s t)
    (hl : within l (m.map Piece.part) = true) : onlyChanges m s t :=
  (h.mono hl).only (by simp)

section
variable {x s t : State}

namespace FrontEndKept

/-! ## Updates of other blocks -/

theorem modRta {f : Rta → Rta} (h : FrontEndKept x s) : FrontEndKept x (s.modRta f) := ⟨h.ftb_eq, h.fl_prefix⟩
theorem modSub {u : Sub} {f : SubRec → SubRec} (h : FrontEndKept x s) : FrontEndKept x (s.modSub u f) :=
  ⟨h.ftb_eq, h.fl_prefix⟩
theorem modHxu {f : Hxu → Hxu} (h : FrontEndKept x s) : FrontEndKept x (s.modHxu f) := ⟨h.ftb_eq, h.fl_prefix⟩
theorem modPgm {f : Pgm → Pgm} (h : FrontEndKept x s) : FrontEndKept x (s.modPgm f) := ⟨h.ftb_eq, h.fl_prefix⟩
theorem modBrt {f : Brt → Brt} (h : FrontEndKept x s) : FrontEndKept x (s.modBrt f) := ⟨h.ftb_eq, h.fl_prefix⟩
theorem modVpb {f : Vpb → Vpb} (h : FrontEndKept x s) : FrontEndKept x (s.modVpb f) := ⟨h.ftb_eq, h.fl_prefix⟩
theorem cntRta {f : RtaCounters → RtaCounters} (h : FrontEndKept x s) : FrontEndKept x (s.cntRta f) := h.modRta
theorem cntVpb {f : VpbCounters → VpbCounters} (h : FrontEndKept x s) : FrontEndKept x (s.cntVpb f) := h.modVpb
theorem modRec {u : Sub} {f : PgmRec → PgmRec} (h : FrontEndKept x s) : FrontEndKept x (s.modRec u f) := h.modPgm

/-! ## Choices and folds -/

theorem ite {c : Prop} {_ : Decidable c} (hs : FrontEndKept x s) (ht : FrontEndKept x t) :
    FrontEndKept x (if c then s else t) := by
  split
  · exact hs
  · exact ht

theorem foldl {α : Type} {f : State → α → State} {l : List α} (h : FrontEndKept x s)
    (hf : ∀ t a, FrontEndKept x t → FrontEndKept x (f t a)) : FrontEndKept x (l.foldl f s) := by
  induction l generalizing s with
  | nil => exact h
  | cons a l ih => exact ih (hf s a h)

/-! ## The FL and the wake instant -/

theorem sendFl {y : FlFrame} (h : FrontEndKept x s) : FrontEndKept x (sendFl y s) :=
  h.trans ⟨fun _ _ => rfl, List.prefix_append ..⟩

theorem powerOn (h : FrontEndKept x s) (hoff : s.ftb.power = .off) : FrontEndKept x (powerOn s) :=
  h.trans ⟨fun hp => absurd hoff hp, List.prefix_append ..⟩

/-- Only while OFF does the wake instant computed again change the timebase. -/
theorem setWakeInstant (h : FrontEndKept x s) : FrontEndKept x (setWakeInstant s) := by
  unfold Machine.setWakeInstant
  split
  case h_1 hoff =>
    split
    · exact h.trans ⟨fun hp => absurd hoff hp, List.prefix_rfl⟩
    · exact (h.powerOn hoff).ite (h.trans ⟨fun hp => absurd hoff hp, List.prefix_rfl⟩)
  case h_2 => exact h.trans ⟨fun _ hw => by rw [modFtb_ftb, ← hw], List.prefix_rfl⟩

theorem refreshWake (h : FrontEndKept x s) : FrontEndKept x (refreshWake s) :=
  ((checkGlobal_changes s).frontEndKept h).setWakeInstant

/-! ## The claims list -/

theorem setClaims {l : List Claim} (h : FrontEndKept x s) : FrontEndKept x (setClaims l s) :=
  ((syncWindow_changes ..).frontEndKept ((syncWindow_changes ..).frontEndKept h.modRta)).refreshWake

theorem removeClaims {p : Claim → Bool} (h : FrontEndKept x s) : FrontEndKept x (removeClaims p s) :=
  h.setClaims.ite h

theorem placeClaim {c : Claim} (h : FrontEndKept x s) : FrontEndKept x (placeClaim c s) := h.modRta.setClaims

theorem mapClaims {p : Claim → Bool} {f : Claim → Claim} (h : FrontEndKept x s) : FrontEndKept x (mapClaims p f s) :=
  h.modRta

theorem appendItems {p : Claim → Bool} {l : List ReplyItem} (h : FrontEndKept x s) :
    FrontEndKept x (appendItems p l s) := (appendItems_changes ..).frontEndKept h

theorem setNotice {u : Sub} {n : Notice} (h : FrontEndKept x s) : FrontEndKept x (setNotice u n s) :=
  (setNotice_changes ..).frontEndKept h

theorem moveWatch {u : Sub} (h : FrontEndKept x s) : FrontEndKept x (moveWatch u s) := by
  refine FrontEndKept.ite ?_ h
  split
  · exact h.ite h.removeClaims.placeClaim
  · exact h

theorem recomputeCycle {u : Sub} (h : FrontEndKept x s) : FrontEndKept x (recomputeCycle u s) := by
  unfold Machine.recomputeCycle
  split
  · exact h
  · exact h.ite h.modSub.moveWatch

/-! ## Checked reads of cells and of PARAM -/

theorem post {kind : EventKind} {b : Option Sub} {a1 a2 : Int} (h : FrontEndKept x s) :
    FrontEndKept x (post kind b a1 a2 s) := (post_changes ..).frontEndKept h

theorem readParam {u : Sub} (h : FrontEndKept x s) : FrontEndKept x (readParam u s) := (readParam_changes ..).frontEndKept h

theorem setCell {i : Nat} {c : Cell} (h : FrontEndKept x s) : FrontEndKept x (setCell i c s) :=
  (setCell_changes ..).frontEndKept h

theorem modCell {i : Nat} {f : Cell → Cell} (h : FrontEndKept x s) : FrontEndKept x (modCell i f s) := h.setCell

section
variable {f : Sub → State → State} (hf : ∀ u t, FrontEndKept x t → FrontEndKept x (f u t))
include hf

theorem settleParams {old : State} (h : FrontEndKept x s) : FrontEndKept x (settleParams f old s) :=
  have ha := (hf .A s h).ite h
  (hf .B _ ha).ite ha

theorem rebuild {i : Nat} {c : Cell} (h : FrontEndKept x s) : FrontEndKept x (rebuild f i c s) :=
  have hread := (readServed_changes .B c _).frontEndKept ((readServed_changes .A c s).frontEndKept h)
  settleParams hf ((cntCtb_changes ..).frontEndKept hread.setCell)

theorem cellFail {i : Nat} (h : FrontEndKept x s) : FrontEndKept x (cellFail f i s) :=
  have hfail := (tmcFail_changes .cell i s).frontEndKept h
  have hcell := (rebuild hf hfail).ite hfail.setCell
  hcell.modHxu.ite hcell

theorem useCellWith {i : Nat} (h : FrontEndKept x s) : FrontEndKept x (useCellWith f i s) := by
  refine FrontEndKept.ite ?_ h
  split
  · exact h
  · exact (tmcCorrect_changes ..).frontEndKept h.setCell
  · exact cellFail hf h

theorem zeroTriggersWith {u : Sub} (h : FrontEndKept x s) : FrontEndKept x (zeroTriggersWith f u s) :=
  h.foldl fun _ _ ht => (useCellWith hf ht).modCell.ite (useCellWith hf ht)

theorem paramChangedWith {u : Sub} (h : FrontEndKept x s) : FrontEndKept x (paramChangedWith f u s) := by
  unfold Machine.paramChangedWith
  exact (zeroTriggersWith hf h).modHxu.recomputeCycle.modSub

end

theorem paramChanged {u : Sub} (h : FrontEndKept x s) : FrontEndKept x (paramChanged u s) :=
  paramChangedWith (fun _ _ => paramChangedWith fun _ _ ht => ht) h

theorem useCell {i : Nat} (h : FrontEndKept x s) : FrontEndKept x (useCell i s) :=
  useCellWith (fun _ _ => paramChanged) h

theorem checkParam {u : Sub} (h : FrontEndKept x s) : FrontEndKept x (checkParam u s) :=
  h.readParam.paramChanged.ite h.readParam

theorem lookup {k : Key} {touch : Bool} (h : FrontEndKept x s) : FrontEndKept x (lookup k touch s).1 := by
  have hread : FrontEndKept x ((waysOf k).foldl (fun s i => Machine.useCell i s) s) := h.foldl fun _ _ => useCell
  unfold Machine.lookup
  dsimp only
  split
  · exact ((touchEntry_changes ..).frontEndKept hread).ite hread
  · exact hread

theorem givePenalty {u : Sub} {k : Key} {penalty : Nat} (h : FrontEndKept x s) :
    FrontEndKept x (givePenalty u k penalty s) := by
  have hlook : FrontEndKept x (Machine.lookup k false s).1 := h.lookup
  unfold Machine.givePenalty
  split
  case h_1 hhit => exact FrontEndKept.modCell (by rwa [hhit] at hlook)
  case h_2 hmiss => rwa [hmiss] at hlook

/-! ## Missed claims and insertion -/

theorem reselectFail {u : Sub} {cause : Nat} (h : FrontEndKept x s) : FrontEndKept x (reselectFail u cause s) := by
  unfold Machine.reselectFail
  split
  · exact h.modSub
  · exact h.modSub.checkParam.givePenalty.post.modPgm

theorem acquisitionSpent {u : Sub} (h : FrontEndKept x s) : FrontEndKept x (acquisitionSpent u s) := by
  unfold Machine.acquisitionSpent
  split
  · exact h.modSub
  · exact h.reselectFail.ite h
  · exact h

theorem missedEffect {c : Claim} (h : FrontEndKept x s) : FrontEndKept x (missedEffect c s) := by
  unfold Machine.missedEffect
  split
  case h_1 => exact h.checkParam.modSub.cntRta
  case h_6 => exact h.acquisitionSpent
  case h_7 => exact h
  all_goals exact h.cntRta

theorem deferRenewal {c : Claim} (h : FrontEndKept x s) : FrontEndKept x (deferRenewal c s) :=
  (deferRenewal_changes ..).frontEndKept h

theorem mergeClaim {c : Claim} (h : FrontEndKept x s) : FrontEndKept x (mergeClaim c s) :=
  h.mapClaims.appendItems.setClaims

theorem displaceLowest {c : Claim} (h : FrontEndKept x s) : FrontEndKept x (displaceLowest c s) :=
  (h.ite h.removeClaims.placeClaim).cntRta.missedEffect.deferRenewal

theorem checkPriorities (h : FrontEndKept x s) : FrontEndKept x (checkPriorities s) := h.checkParam.checkParam

theorem displaceInsert {c : Claim} (h : FrontEndKept x s) : FrontEndKept x (displaceInsert c s) :=
  have hread := h.checkPriorities
  hread.mergeClaim.ite (hread.placeClaim.ite hread.displaceLowest)

theorem insertClaim {c : Claim} (h : FrontEndKept x s) : FrontEndKept x (insertClaim c s) :=
  h.cntRta.missedEffect.deferRenewal.ite (h.mergeClaim.ite (h.placeClaim.ite h.displaceInsert))

/-! ## The chains of watches, gaps and searches -/

theorem insertWatch {u : Sub} (h : FrontEndKept x s) : FrontEndKept x (insertWatch u s) := by
  unfold Machine.insertWatch
  dsimp only
  split
  · exact (h.modRec.ite h.modRec.checkPriorities).insertClaim
  · exact h.modRec.ite h.modRec.checkPriorities

theorem renewWatch {u : Sub} (h : FrontEndKept x s) : FrontEndKept x (renewWatch u s) := h.insertWatch.ite h

theorem insertGap {u : Sub} {k : Nat} (h : FrontEndKept x s) : FrontEndKept x (insertGap u k s) := h.modRec.insertClaim

theorem startGap {u : Sub} (h : FrontEndKept x s) : FrontEndKept x (startGap u s) := h.ite h.checkParam.insertGap

theorem startWeakGap {u : Sub} (h : FrontEndKept x s) : FrontEndKept x (startWeakGap u s) := h.ite h.insertGap

theorem renewGap {u : Sub} (h : FrontEndKept x s) : FrontEndKept x (renewGap u s) := by
  unfold Machine.renewGap
  split
  · exact h.startGap
  · exact h.startWeakGap.ite h
  · exact h

theorem setChain {u : Sub} {c : Option Chain} (h : FrontEndKept x s) : FrontEndKept x (setChain u c s) := h.modRec

theorem startSearch {u : Sub} (h : FrontEndKept x s) : FrontEndKept x (startSearch u s) := by
  refine h.setChain.ite ?_
  split
  · exact h.setChain
  · exact h.removeClaims.setChain.setChain.insertClaim.ite h.removeClaims.setChain.setChain
  · exact h.setChain.insertClaim

theorem startSearchIfDue {u : Sub} (h : FrontEndKept x s) : FrontEndKept x (startSearchIfDue u s) := h.startSearch.ite h

theorem renewSearch (h : FrontEndKept x s) : FrontEndKept x (renewSearch s) := by
  unfold Machine.renewSearch
  dsimp only
  split
  · exact h.modPgm.setChain.setChain.insertClaim
  · exact h.modPgm.setChain.insertClaim
  · exact h.modPgm.setChain.insertClaim
  · exact h.modPgm

theorem renewClaim {c : Claim} (h : FrontEndKept x s) : FrontEndKept x (renewClaim c s) := by
  unfold Machine.renewClaim
  split
  · exact h.renewWatch
  · exact h.renewGap
  · exact h.renewSearch
  · exact h.startSearchIfDue
  · exact h

/-! ## A sent GRANT (R44) -/

theorem insertReply {u : Sub} {start : Nat} {items : List ReplyItem} (h : FrontEndKept x s) :
    FrontEndKept x (insertReply u start items s) := h.insertClaim.ite h.insertClaim.appendItems

theorem watchGranted {u : Sub} {fn : Nat} (h : FrontEndKept x s) : FrontEndKept x (watchGranted u fn s) :=
  h.modRec.insertReply.ite h.modRec

theorem drainQueue {u : Sub} {fn : Nat} (h : FrontEndKept x s) : FrontEndKept x (drainQueue u fn s) := by
  refine h.ite ?_
  split
  · exact h
  · exact h.modBrt.sendFl.modBrt

theorem sendVoice {u : Sub} {fn : Nat} (h : FrontEndKept x s) : FrontEndKept x (sendVoice u fn s) := by
  unfold Machine.sendVoice
  split
  · exact h
  · exact h.modVpb.cntVpb.ite h.modVpb.sendFl.cntVpb

theorem sendReply {u : Sub} {fn : Nat} {items : List ReplyItem} (h : FrontEndKept x s) :
    FrontEndKept x (sendReply u fn items s) :=
  have hsent := h.ite h.sendFl
  hsent.setNotice.ite hsent

theorem tuneAway {u : Sub} {limit : Nat} (h : FrontEndKept x s) : FrontEndKept x (tuneAway u limit s) := h.post.cntRta

theorem grantedClaim {g : Grant} {c : Claim} (h : FrontEndKept x s) : FrontEndKept x (grantedClaim g c s) := by
  unfold Machine.grantedClaim
  dsimp only
  split
  case h_1 =>
    split
    · exact h.mapClaims.modSub.removeClaims.tuneAway.watchGranted.renewWatch
    · exact h.mapClaims.modSub.removeClaims.watchGranted.renewWatch
  case h_2 => exact h.mapClaims.removeClaims.sendReply
  case h_3 => exact h.mapClaims.removeClaims.renewClaim
  case h_4 => exact h.mapClaims.removeClaims.ite h.mapClaims
  case h_5 => exact h.mapClaims.removeClaims.renewClaim.ite h.mapClaims
  case h_6 => exact h.mapClaims

end FrontEndKept
end

/-- Sending a GRANT puts its frame on the FL first; all that follows keeps the front end. -/
theorem grantSent_keepsFrontEnd (g : Grant) (s : State) : FrontEndKept (sendFl (.grant g) s) (grantSent g s) := by
  have hsent := FrontEndKept.refl (sendFl (.grant g) s)
  unfold grantSent
  dsimp only
  split
  · split
    · exact hsent.drainQueue.sendVoice
    · exact hsent
  · split
    · exact hsent.grantedClaim
    · exact hsent

@[simp] theorem pump_ftb (s : State) : (pump s).ftb = s.ftb := (pump_changes s).keep (.part .ftb) (by decide)

@[simp] theorem pump_fl (s : State) : (pump s).out.fl = s.out.fl := (pump_changes s).keep (.part .fl) (by decide)

/-! ## READY (R25) -/

/-- The timebase that READY makes of a WARMING one (R25, R28, R32). -/
def switchedOn (f : Ftb) : Ftb :=
  { f with power := .on, held := none, comparePending := true, watchdog := some 656, wake := none }

theorem exec_ready (s : State) : exec .ready s = .next (pump (takeReady s)) := rfl

theorem takeReady_of_not_warming {s : State} (hp : s.ftb.power ≠ .warming) : takeReady s = countStray s := by
  unfold takeReady
  split
  case h_1 hw => exact absurd hw hp
  case h_2 => rfl

theorem takeReady_of_warming {s : State} (hp : s.ftb.power = .warming) :
    takeReady s = match s.ftb.held with
      | some g => grantSent g (s.modFtb switchedOn)
      | none => s.modFtb switchedOn := by
  unfold takeReady
  rw [hp]
  rfl

theorem takeReady_of_held {g : Grant} {s : State} (hp : s.ftb.power = .warming) (hg : s.ftb.held = some g) :
    takeReady s = grantSent g (s.modFtb switchedOn) := by
  rw [takeReady_of_warming hp, hg]

/-- With no GRANT held, to clear it changes nothing. -/
theorem takeReady_of_not_held {s : State} (hp : s.ftb.power = .warming) (hg : s.ftb.held = none) :
    takeReady s = s.modFtb (fun f => { f with power := .on, comparePending := true, watchdog := some 656, wake := none }) := by
  rw [takeReady_of_warming hp, hg]
  simp only [State.modFtb, switchedOn, ← hg]

/-- READY with a held GRANT: the front end is ON as `switchedOn` says, and the GRANT stands first of what is added on the FL. -/
theorem takeReady_of_held_frontEnd {g : Grant} {s : State} (hp : s.ftb.power = .warming) (hg : s.ftb.held = some g) :
    (takeReady s).ftb = switchedOn s.ftb ∧ (s.out.fl ++ [.grant g]) <+: (takeReady s).out.fl := by
  have hk := grantSent_keepsFrontEnd g (s.modFtb switchedOn)
  rw [takeReady_of_held hp hg]
  exact ⟨hk.ftb_eq (by simp [sendFl, switchedOn]) rfl, hk.fl_prefix⟩

/-- Settles O23, by the three cases of R25: not WARMING, WARMING without a held GRANT, WARMING with one. -/
theorem readySwitchesOn : Obligations.ReadySwitchesOn := by
  unfold Obligations.ReadySwitchesOn
  refine ⟨fun s hp => ?_, fun s hp hg => ?_, fun g s hp hg => ?_⟩
  · rw [exec_ready, takeReady_of_not_warming hp]
    rfl
  · rw [exec_ready, takeReady_of_not_held hp hg]
    rfl
  · obtain ⟨hftb, hfl⟩ := takeReady_of_held_frontEnd hp hg
    have hch : changes (paramUse ++ [.part .brt]) s (pump (takeReady s)) :=
      changes.step (pump_changes _) (by decide) (takeReady_changes s)
    exact ⟨_, exec_ready s, (pump_ftb _).trans hftb, (pump_fl _).symm ▸ hfl, hch.onlyParts (by decide)⟩

end Sys2Proof.Machine
end

section
/-! VOICE_LOOP (R167, O55). CODEC_LOOP is written by `setCodecLoop` and the two resets alone: every other operation keeps
what it reads, whatever else of the voice block it changes. An operation that leaves the whole block alone is known by its list of
changes (Laws/); the others are followed here, in the order of the model. -/

namespace Sys2Proof.Machine

-- One lemma at a time: elaborated together they would each take a thread.
set_option Elab.async false

/-- CODEC_LOOP reads `b`, true for closed (R167). -/
def CodecLoopIs (b : Bool) (s : State) : Prop := s.vpb.codecLoop = b

section
variable {b : Bool} {s t : State}

namespace CodecLoopIs

/-- An operation whose list of changes leaves out the voice block keeps CODEC_LOOP. -/
theorem via {l : List Piece} (h : CodecLoopIs b s) (c : changes l s t)
    (hl : l.contains (.part .vpb) = false := by decide) : CodecLoopIs b t := by
  have hvpb : t.vpb = s.vpb := c.keep (.part .vpb) (by simpa using hl)
  rw [CodecLoopIs, hvpb]
  exact h

/-! ## Updates of one block (those of its counters among them) -/

theorem modVpb {f : Vpb → Vpb} (h : CodecLoopIs b s) (hf : (f s.vpb).codecLoop = s.vpb.codecLoop := by rfl) :
    CodecLoopIs b (s.modVpb f) := hf.trans h

theorem modFtb {f : Ftb → Ftb} (h : CodecLoopIs b s) : CodecLoopIs b (s.modFtb f) := h
theorem modRta {f : Rta → Rta} (h : CodecLoopIs b s) : CodecLoopIs b (s.modRta f) := h
theorem modSub {u : Sub} {f : SubRec → SubRec} (h : CodecLoopIs b s) : CodecLoopIs b (s.modSub u f) := h
theorem modTab {f : Tables → Tables} (h : CodecLoopIs b s) : CodecLoopIs b (s.modTab f) := h
theorem modCtb {f : Ctb → Ctb} (h : CodecLoopIs b s) : CodecLoopIs b (s.modCtb f) := h
theorem modMfu {f : Mfu → Mfu} (h : CodecLoopIs b s) : CodecLoopIs b (s.modMfu f) := h
theorem modPgm {f : Pgm → Pgm} (h : CodecLoopIs b s) : CodecLoopIs b (s.modPgm f) := h
theorem modRec {u : Sub} {f : PgmRec → PgmRec} (h : CodecLoopIs b s) : CodecLoopIs b (s.modRec u f) := h
theorem modHxu {f : Hxu → Hxu} (h : CodecLoopIs b s) : CodecLoopIs b (s.modHxu f) := h
theorem modAlc {f : Alc → Alc} (h : CodecLoopIs b s) : CodecLoopIs b (s.modAlc f) := h
theorem modTmc {f : Tmc → Tmc} (h : CodecLoopIs b s) : CodecLoopIs b (s.modTmc f) := h
theorem modBrt {f : Brt → Brt} (h : CodecLoopIs b s) : CodecLoopIs b (s.modBrt f) := h
theorem modTxs {f : Txs → Txs} (h : CodecLoopIs b s) : CodecLoopIs b (s.modTxs f) := h
theorem cntVpb {f : VpbCounters → VpbCounters} (h : CodecLoopIs b s) : CodecLoopIs b (s.cntVpb f) := h.modVpb
theorem setCell {i : Nat} {c : Cell} (h : CodecLoopIs b s) : CodecLoopIs b (setCell i c s) := h
theorem modCell {i : Nat} {f : Cell → Cell} (h : CodecLoopIs b s) : CodecLoopIs b (modCell i f s) := h

/-! ## Choices and folds -/

theorem ite {c : Prop} {_ : Decidable c} (hs : CodecLoopIs b s) (ht : CodecLoopIs b t) :
    CodecLoopIs b (if c then s else t) := by
  split
  · exact hs
  · exact ht

theorem of_fst {α : Type} {p : State × α} {a : α} (h : CodecLoopIs b p.1) (hp : p = (t, a)) : CodecLoopIs b t := by
  rwa [hp] at h

theorem foldl {α : Type} {f : State → α → State} {l : List α} (h : CodecLoopIs b s)
    (hf : ∀ t a, CodecLoopIs b t → CodecLoopIs b (f t a)) : CodecLoopIs b (l.foldl f s) := by
  induction l generalizing s with
  | nil => exact h
  | cons a l ih => exact ih (hf s a h)

theorem foldl_fst {α β : Type} {f : State × β → α → State × β} {l : List α} {p : State × β} (h : CodecLoopIs b p.1)
    (hf : ∀ p a, CodecLoopIs b p.1 → CodecLoopIs b (f p a).1) : CodecLoopIs b (l.foldl f p).1 := by
  induction l generalizing p with
  | nil => exact h
  | cons a l ih => exact ih (hf p a h)

theorem writeFrom {α : Type} {f : Nat → α → State → State} {i : Nat} {l : List α} (h : CodecLoopIs b s)
    (hf : ∀ i a t, CodecLoopIs b t → CodecLoopIs b (f i a t)) : CodecLoopIs b (writeFrom f i l s) := by
  induction l generalizing i s with
  | nil => exact h
  | cons a l ih => exact ih (hf i a s h)

/-! ## GLOBAL and the wake instant (R22, R161) -/

theorem restartOcc (h : CodecLoopIs b s) : CodecLoopIs b (restartOcc s) := h.modVpb

theorem checkGlobal (h : CodecLoopIs b s) : CodecLoopIs b (checkGlobal s) := by
  refine h.ite ?_
  split
  · exact h
  · exact h.modTab.via (tmcCorrect_changes ..)
  · have hfail := (h.modTab (f := fun t => { t with global := { s.tab.global with damaged := true } })).via
      (tmcFail_changes .global 0 _)
    exact hfail.ite hfail.restartOcc

theorem drawCurrent (h : CodecLoopIs b s) : CodecLoopIs b (drawCurrent s) := h.checkGlobal.modFtb

theorem setWakeInstant (h : CodecLoopIs b s) : CodecLoopIs b (setWakeInstant s) := h.via (setWakeInstant_changes s)

theorem refreshWake (h : CodecLoopIs b s) : CodecLoopIs b (refreshWake s) := h.checkGlobal.setWakeInstant

theorem useGlobal (h : CodecLoopIs b s) : CodecLoopIs b (useGlobal s) := h.checkGlobal.setWakeInstant.ite h.checkGlobal

theorem powerOn (h : CodecLoopIs b s) : CodecLoopIs b (powerOn s) := h.via (powerOn_changes s)

theorem powerOff (h : CodecLoopIs b s) : CodecLoopIs b (powerOff s) := h.via (powerOff_changes s)

theorem powerDownOn (h : CodecLoopIs b s) : CodecLoopIs b (powerDownOn s) := by
  unfold Machine.powerDownOn
  dsimp only
  split
  · exact h.modFtb.powerOff.drawCurrent
  · exact h.modFtb.powerOff

theorem powerDownTest (h : CodecLoopIs b s) : CodecLoopIs b (powerDownTest s) := by
  unfold Machine.powerDownTest
  dsimp only
  split
  · exact h.checkGlobal
  · exact h.checkGlobal.powerDownOn.setWakeInstant.ite h.checkGlobal
  · exact h.checkGlobal.powerOff.setWakeInstant.ite h.checkGlobal

/-! ## The claims list and the paging key (R3, R37, R96) -/

theorem syncWindow {u : Sub} (h : CodecLoopIs b s) : CodecLoopIs b (syncWindow u s) := h.via (syncWindow_changes u s)

theorem setClaims {l : List Claim} (h : CodecLoopIs b s) : CodecLoopIs b (setClaims l s) :=
  h.modRta.syncWindow.syncWindow.refreshWake

theorem removeClaims {p : Claim → Bool} (h : CodecLoopIs b s) : CodecLoopIs b (removeClaims p s) := h.setClaims.ite h

theorem placeClaim {c : Claim} (h : CodecLoopIs b s) : CodecLoopIs b (placeClaim c s) := h.modRta.setClaims

theorem moveWatch {u : Sub} (h : CodecLoopIs b s) : CodecLoopIs b (moveWatch u s) := by
  refine CodecLoopIs.ite ?_ h
  split
  · exact h.ite h.removeClaims.placeClaim
  · exact h

theorem recomputeCycle {u : Sub} (h : CodecLoopIs b s) : CodecLoopIs b (recomputeCycle u s) := by
  unfold Machine.recomputeCycle
  split
  · exact h
  · exact h.ite h.modSub.moveWatch

theorem rekey {u : Sub} (h : CodecLoopIs b s) : CodecLoopIs b (rekey u s) :=
  have hread := h.via (readForKey_changes (identitiesOf u) s)
  hread.ite hread.modSub.moveWatch

theorem checkIdentity {i : Nat} (h : CodecLoopIs b s) : CodecLoopIs b (checkIdentity i s) :=
  have hread := h.via (readIdentity_changes i s)
  hread.rekey.ite hread

/-! ## The Cell Table (R59 to R72, R89) -/

section
variable {f : Sub → State → State} (hf : ∀ u t, CodecLoopIs b t → CodecLoopIs b (f u t))
include hf

theorem settleParams {old : State} (h : CodecLoopIs b s) : CodecLoopIs b (settleParams f old s) :=
  have ha := (hf .A s h).ite h
  (hf .B _ ha).ite ha

theorem rebuild {i : Nat} {c : Cell} (h : CodecLoopIs b s) : CodecLoopIs b (rebuild f i c s) :=
  have hread := (h.via (readServed_changes .A c s)).via (readServed_changes .B c _)
  settleParams hf (hread.setCell.via (cntCtb_changes ..))

theorem cellFail {i : Nat} (h : CodecLoopIs b s) : CodecLoopIs b (cellFail f i s) :=
  have hfail := h.via (tmcFail_changes .cell i s)
  have hcell := (rebuild hf hfail).ite hfail.setCell
  hcell.modHxu.ite hcell

theorem useCellWith {i : Nat} (h : CodecLoopIs b s) : CodecLoopIs b (useCellWith f i s) := by
  refine CodecLoopIs.ite ?_ h
  split
  · exact h
  · exact h.setCell.via (tmcCorrect_changes ..)
  · exact cellFail hf h

theorem zeroTriggersWith {u : Sub} (h : CodecLoopIs b s) : CodecLoopIs b (zeroTriggersWith f u s) :=
  h.foldl fun _ _ ht => (useCellWith hf ht).modCell.ite (useCellWith hf ht)

theorem paramChangedWith {u : Sub} (h : CodecLoopIs b s) : CodecLoopIs b (paramChangedWith f u s) :=
  ((zeroTriggersWith hf h).via (zeroTriggerList_changes u _)).recomputeCycle.modSub

end

theorem paramChanged {u : Sub} (h : CodecLoopIs b s) : CodecLoopIs b (paramChanged u s) :=
  paramChangedWith (fun _ _ => paramChangedWith fun _ _ ht => ht) h

theorem useCell {i : Nat} (h : CodecLoopIs b s) : CodecLoopIs b (useCell i s) := useCellWith (fun _ _ => paramChanged) h

theorem zeroTriggers {u : Sub} (h : CodecLoopIs b s) : CodecLoopIs b (zeroTriggers u s) :=
  zeroTriggersWith (fun _ _ => paramChanged) h

theorem checkParam {u : Sub} (h : CodecLoopIs b s) : CodecLoopIs b (checkParam u s) :=
  have hread := h.via (readParam_changes u s)
  hread.paramChanged.ite hread

theorem lookup {k : Key} {touch : Bool} (h : CodecLoopIs b s) : CodecLoopIs b (lookup k touch s).1 := by
  have hread : CodecLoopIs b ((waysOf k).foldl (fun s i => Machine.useCell i s) s) := h.foldl fun _ _ => useCell
  unfold Machine.lookup
  dsimp only
  split
  · exact (hread.via (touchEntry_changes ..)).ite hread
  · exact hread

theorem walkWays {base : Nat} {l : List Nat} (h : CodecLoopIs b s) : CodecLoopIs b (walkWays base l s).1 := by
  induction l generalizing s with
  | nil => exact h
  | cons w l ih =>
    unfold Machine.walkWays
    dsimp only
    split
    · exact h.useCell
    · split
      · exact h.useCell
      · exact ih h.useCell

theorem takeWay {k : Key} {i : Nat} {d : Bool} (h : CodecLoopIs b s) : CodecLoopIs b (takeWay k i d s) :=
  h.via (takeWay_changes k i d s)

theorem allocate {k : Key} (h : CodecLoopIs b s) : CodecLoopIs b (allocate k s).1 := by
  unfold Machine.allocate
  split
  · exact h
  · split
    · exact h.takeWay
    · split
      case h_1 hway => exact (h.walkWays.of_fst hway).takeWay
      case h_2 hway => exact h.walkWays.of_fst hway

theorem lookupOrAllocate {k : Key} (h : CodecLoopIs b s) : CodecLoopIs b (lookupOrAllocate k s).1 := by
  unfold Machine.lookupOrAllocate
  split
  case h_1 hhit => exact h.lookup.of_fst hhit
  case h_2 hmiss => exact (h.lookup.of_fst hmiss).allocate

theorem releaseTest {i : Nat} (h : CodecLoopIs b s) : CodecLoopIs b (releaseTest i s) := h.via (releaseTest_changes i s)

theorem unpinServing {u : Sub} {i : Nat} (h : CodecLoopIs b s) : CodecLoopIs b (unpinServing u i s) :=
  h.useCell.modCell.releaseTest

theorem releaseServing {u : Sub} (h : CodecLoopIs b s) : CodecLoopIs b (releaseServing u s) := by
  unfold Machine.releaseServing
  split
  · exact h.unpinServing
  · exact h

theorem pinServing {u : Sub} {i limit : Nat} (h : CodecLoopIs b s) : CodecLoopIs b (pinServing u i limit s) := by
  unfold Machine.pinServing
  split
  · exact h.ite h.modCell.unpinServing
  · exact h.modCell

theorem releaseTarget (h : CodecLoopIs b s) : CodecLoopIs b (releaseTarget s) := by
  unfold Machine.releaseTarget
  split
  · exact h.useCell.modCell.releaseTest
  · exact h

theorem givePenalty {u : Sub} {k : Key} {penalty : Nat} (h : CodecLoopIs b s) :
    CodecLoopIs b (givePenalty u k penalty s) := by
  unfold Machine.givePenalty
  split
  case h_1 hhit => exact (h.lookup.of_fst hhit).modCell
  case h_2 hmiss => exact h.lookup.of_fst hmiss

theorem writeBarred {k : Key} {barred : Bool} (h : CodecLoopIs b s) : CodecLoopIs b (writeBarred k barred s).1 := by
  unfold Machine.writeBarred
  split
  case h_1 hhit => exact (h.lookup.of_fst hhit).modCell
  case h_2 hmiss => exact h.lookup.of_fst hmiss

theorem detachCells {u : Sub} (h : CodecLoopIs b s) : CodecLoopIs b (detachCells u s) :=
  (h.foldl fun _ _ ht => ht.useCell.modCell.ite ht.useCell).foldl fun _ _ => releaseTest

/-! ## The Voice Playout Buffer (R162 to R168) -/

theorem modPlay {f : Playout → Playout} (h : CodecLoopIs b s) : CodecLoopIs b (modPlay f s) := h.modVpb

theorem countUpDiscarded (h : CodecLoopIs b s) : CodecLoopIs b (countUpDiscarded s) := h.cntVpb

theorem activatePlayout {i : Nat} {u : Sub} (h : CodecLoopIs b s) : CodecLoopIs b (activatePlayout i u s) := by
  unfold Machine.activatePlayout
  dsimp only
  split
  · exact h.useGlobal.modVpb.restartOcc
  · exact h.useGlobal.modVpb

theorem endPlayout (h : CodecLoopIs b s) : CodecLoopIs b (endPlayout s) := by
  unfold Machine.endPlayout
  split
  · exact h
  · exact h.modVpb.cntVpb

theorem endIfSilent (h : CodecLoopIs b s) : CodecLoopIs b (endIfSilent s) := h.endPlayout.ite h

theorem examineFrame {f : VoiceFrame} {next : Nat} {p : Playout} (h : CodecLoopIs b s) :
    CodecLoopIs b (examineFrame f next p s) := by
  refine h.cntVpb.ite (h.cntVpb.ite (h.modPlay.ite ?_))
  split
  · exact h
  · exact h.modPlay.cntVpb

theorem offerFrame {f : VoiceFrame} (h : CodecLoopIs b s) : CodecLoopIs b (offerFrame f s) := by
  unfold Machine.offerFrame
  split
  · exact h
  · split
    · exact h.modPlay
    · exact h.examineFrame
    · exact h.examineFrame

theorem sampleOcc {n : Nat} (h : CodecLoopIs b s) : CodecLoopIs b (sampleOcc n s) := by
  unfold Machine.sampleOcc
  dsimp only
  split
  · exact h.useGlobal.modVpb
  · exact h.useGlobal.modVpb

theorem sendCodec {x : CodecOut} (h : CodecLoopIs b s) : CodecLoopIs b (sendCodec x s) := h.via (sendCodec_changes x s)

theorem playNext {next : Nat} {p : Playout} (h : CodecLoopIs b s) : CodecLoopIs b (playNext next p s) := by
  unfold Machine.playNext
  split
  · exact h.modPlay.sendCodec.cntVpb
  · split
    · exact h.modPlay.sendCodec.cntVpb
    · exact h.modPlay.sendCodec.cntVpb

theorem pull (h : CodecLoopIs b s) : CodecLoopIs b (pull s) := by
  unfold Machine.pull
  split
  · exact h.sendCodec
  · dsimp only
    split
    · exact h.sampleOcc.sendCodec
    · exact h.sampleOcc.sendCodec
    · exact h.sampleOcc.playNext

theorem setPendingUp {f : VoiceFrame} (h : CodecLoopIs b s) : CodecLoopIs b (setPendingUp f s) :=
  (h.countUpDiscarded.ite h).modVpb

theorem takeUpSeq (h : CodecLoopIs b s) : CodecLoopIs b (takeUpSeq s) := h.modPlay

theorem takeCodecFrame {payload : Octets} (h : CodecLoopIs b s) : CodecLoopIs b (takeCodecFrame payload s) := by
  unfold Machine.takeCodecFrame
  split
  · exact h
  · dsimp only
    split
    · exact h.takeUpSeq.setPendingUp
    · exact h.takeUpSeq.offerFrame
    · exact h

theorem takeDownlinkVoice {f : VoiceFrame} (h : CodecLoopIs b s) : CodecLoopIs b (takeDownlinkVoice f s) := by
  unfold Machine.takeDownlinkVoice
  split
  · exact h
  · split
    · exact h.offerFrame
    · exact h.cntVpb
    · exact h.offerFrame.setPendingUp
    · exact h.setPendingUp

theorem openRadioLoop {announce : Bool} (h : CodecLoopIs b s) : CodecLoopIs b (openRadioLoop announce s) := by
  unfold Machine.openRadioLoop
  split
  · exact h
  · exact (h.modVpb.via (postLoop_changes ..)).ite h.modVpb

theorem openLoopOf {u : Sub} {announce : Bool} (h : CodecLoopIs b s) : CodecLoopIs b (openLoopOf u announce s) :=
  h.openRadioLoop.ite h

theorem closeRadioLoop {u : Sub} (h : CodecLoopIs b s) : CodecLoopIs b (closeRadioLoop u s) := by
  unfold Machine.closeRadioLoop
  split
  · exact h
  · exact h.modVpb.via (postLoop_changes ..)

/-! ## Bearers and screening (R129 to R137) -/

theorem checkBearer {i : Nat} (h : CodecLoopIs b s) : CodecLoopIs b (checkBearer i s) :=
  have huse := h.via (useEntry_changes .bearer i (bearerAt s i) s (setBearer_changes i))
  huse.endIfSilent.ite huse

theorem changeBearers {u : Sub} {p : BearerState → Bool} {st : BearerState} (h : CodecLoopIs b s) :
    CodecLoopIs b (changeBearers u p st s) :=
  (h.foldl fun _ _ ht => (ht.checkBearer.via (setBearer_changes ..)).ite ht.checkBearer).endIfSilent

theorem idleBearers {u : Sub} (h : CodecLoopIs b s) : CodecLoopIs b (idleBearers u s) := h.changeBearers

theorem holdBearers {u : Sub} (h : CodecLoopIs b s) : CodecLoopIs b (holdBearers u s) := h.changeBearers

theorem resumeBearers {u : Sub} (h : CodecLoopIs b s) : CodecLoopIs b (resumeBearers u s) := h.changeBearers

theorem screeningCheck {u : Sub} {base span : Nat} (h : CodecLoopIs b s) : CodecLoopIs b (screeningCheck u base span s).1 :=
  h.checkParam.foldl fun _ _ ht => ht.via (checkScreen_changes ..)

/-! ## Missed claims, insertion and renewal (R38, R39, R46, R51, R96, R110) -/

theorem post {kind : EventKind} {u : Option Sub} {a1 a2 : Int} (h : CodecLoopIs b s) : CodecLoopIs b (post kind u a1 a2 s) :=
  h.via (post_changes ..)

theorem reselectFail {u : Sub} {cause : Nat} (h : CodecLoopIs b s) : CodecLoopIs b (reselectFail u cause s) := by
  unfold Machine.reselectFail
  split
  · exact h.modSub
  · exact h.modSub.checkParam.givePenalty.post.modPgm

theorem acquisitionSpent {u : Sub} (h : CodecLoopIs b s) : CodecLoopIs b (acquisitionSpent u s) := by
  unfold Machine.acquisitionSpent
  split
  · exact h.modSub
  · exact h.reselectFail.ite h
  · exact h

theorem missedEffect {c : Claim} (h : CodecLoopIs b s) : CodecLoopIs b (missedEffect c s) := by
  unfold Machine.missedEffect
  split
  case h_1 => exact h.checkParam.modSub.via (countWatchMissed_changes ..)
  case h_6 => exact h.acquisitionSpent
  case h_7 => exact h
  all_goals exact h.modRta

theorem deferRenewal {c : Claim} (h : CodecLoopIs b s) : CodecLoopIs b (deferRenewal c s) := h.via (deferRenewal_changes c s)

theorem mergeClaim {c : Claim} (h : CodecLoopIs b s) : CodecLoopIs b (mergeClaim c s) :=
  ((h.via (mapClaims_changes ..)).via (appendItems_changes ..)).setClaims

theorem displaceLowest {c : Claim} (h : CodecLoopIs b s) : CodecLoopIs b (displaceLowest c s) :=
  ((h.ite h.removeClaims.placeClaim).via (countDisplaced_changes _)).missedEffect.deferRenewal

theorem checkPriorities (h : CodecLoopIs b s) : CodecLoopIs b (checkPriorities s) := h.checkParam.checkParam

theorem displaceInsert {c : Claim} (h : CodecLoopIs b s) : CodecLoopIs b (displaceInsert c s) :=
  have hread := h.checkPriorities
  hread.mergeClaim.ite (hread.placeClaim.ite hread.displaceLowest)

theorem insertClaim {c : Claim} (h : CodecLoopIs b s) : CodecLoopIs b (insertClaim c s) :=
  h.modRta.missedEffect.deferRenewal.ite (h.mergeClaim.ite (h.placeClaim.ite h.displaceInsert))

theorem insertWatch {u : Sub} (h : CodecLoopIs b s) : CodecLoopIs b (insertWatch u s) := by
  unfold Machine.insertWatch
  dsimp only
  split
  · exact (h.modRec.ite h.modRec.checkPriorities).insertClaim
  · exact h.modRec.ite h.modRec.checkPriorities

theorem renewWatch {u : Sub} (h : CodecLoopIs b s) : CodecLoopIs b (renewWatch u s) := h.insertWatch.ite h

theorem insertGap {u : Sub} {k : Nat} (h : CodecLoopIs b s) : CodecLoopIs b (insertGap u k s) := h.modRec.insertClaim

theorem startGap {u : Sub} (h : CodecLoopIs b s) : CodecLoopIs b (startGap u s) := h.ite h.checkParam.insertGap

theorem startWeakGap {u : Sub} (h : CodecLoopIs b s) : CodecLoopIs b (startWeakGap u s) := h.ite h.insertGap

theorem renewGap {u : Sub} (h : CodecLoopIs b s) : CodecLoopIs b (renewGap u s) := by
  unfold Machine.renewGap
  split
  · exact h.startGap
  · exact h.startWeakGap.ite h
  · exact h

theorem setChain {u : Sub} {c : Option Chain} (h : CodecLoopIs b s) : CodecLoopIs b (setChain u c s) := h.modRec

theorem startSearch {u : Sub} (h : CodecLoopIs b s) : CodecLoopIs b (startSearch u s) := by
  refine h.setChain.ite ?_
  split
  · exact h.setChain
  · exact h.removeClaims.setChain.setChain.insertClaim.ite h.removeClaims.setChain.setChain
  · exact h.setChain.insertClaim

theorem startSearchIfDue {u : Sub} (h : CodecLoopIs b s) : CodecLoopIs b (startSearchIfDue u s) := h.startSearch.ite h

theorem renewSearch (h : CodecLoopIs b s) : CodecLoopIs b (renewSearch s) := by
  unfold Machine.renewSearch
  dsimp only
  split
  · exact h.modPgm.setChain.setChain.insertClaim
  · exact h.modPgm.setChain.insertClaim
  · exact h.modPgm.setChain.insertClaim
  · exact h.modPgm

theorem leaveSearch {u : Sub} (h : CodecLoopIs b s) : CodecLoopIs b (leaveSearch u s) :=
  have hown := h.setChain.removeClaims
  have hdue := hown.ite hown.modPgm
  hdue.ite hdue.removeClaims

theorem renewClaim {c : Claim} (h : CodecLoopIs b s) : CodecLoopIs b (renewClaim c s) := by
  unfold Machine.renewClaim
  split
  · exact h.renewWatch
  · exact h.renewGap
  · exact h.renewSearch
  · exact h.startSearchIfDue
  · exact h

/-! ## Camping, reselection and pages (R10, R97 to R110) -/

theorem areaTest {u : Sub} (h : CodecLoopIs b s) : CodecLoopIs b (areaTest u s) := by
  unfold Machine.areaTest
  dsimp only
  split
  · exact h.checkParam
  · exact h.checkParam.modRec.ite (h.checkParam.ite h.checkParam.modRec.post)

theorem setServing {u : Sub} {k : Key} {area tCell g : Nat} (h : CodecLoopIs b s) :
    CodecLoopIs b (setServing u k area tCell g s) := h.checkParam.modSub.areaTest

theorem takeServingCell {u : Sub} {k : Key} (h : CodecLoopIs b s) : CodecLoopIs b (takeServingCell u k s).1 := by
  unfold Machine.takeServingCell
  split
  case h_1 hnone => exact h.lookupOrAllocate.of_fst hnone
  case h_2 hsome => exact (h.lookupOrAllocate.of_fst hsome).modCell.checkParam.pinServing

theorem camp {u : Sub} {r : AcqResult} (h : CodecLoopIs b s) : CodecLoopIs b (camp u r s).1 := by
  unfold Machine.camp
  split
  case h_1 hnone => exact h.takeServingCell.of_fst hnone
  case h_2 hsome => exact (h.takeServingCell.of_fst hsome).setServing.modSub.leaveSearch.post.insertWatch

theorem markBarred {k : Key} (h : CodecLoopIs b s) : CodecLoopIs b (markBarred k s) := h.writeBarred

theorem initialFail {u : Sub} (h : CodecLoopIs b s) : CodecLoopIs b (initialFail u s) := h.modSub.startSearchIfDue

theorem initialResult {u : Sub} {r : AcqResult} (h : CodecLoopIs b s) : CodecLoopIs b (initialResult u r s) := by
  refine CodecLoopIs.ite (h.markBarred.initialFail.ite ?_) h.initialFail
  split
  case h_1 hcamped => exact h.camp.of_fst hcamped
  case h_2 hfailed => exact (h.camp.of_fst hfailed).initialFail

theorem takeOffer {u : Sub} {k : Key} (h : CodecLoopIs b s) : CodecLoopIs b (takeOffer u k s) :=
  h.modSub.insertClaim.modPgm.ite h

theorem followRhythm {u : Sub} {old : Option (Nat × Nat)} (h : CodecLoopIs b s) : CodecLoopIs b (followRhythm u old s) :=
  h.ite h.moveWatch

theorem reselectFound {u : Sub} {r : AcqResult} (h : CodecLoopIs b s) : CodecLoopIs b (reselectFound u r s) := by
  unfold Machine.reselectFound
  split
  case h_1 hnone => exact (h.takeServingCell.of_fst hnone).reselectFail
  case h_2 hsome =>
    exact (h.takeServingCell.of_fst hsome).setServing.modSub.zeroTriggers.post.modPgm.followRhythm

theorem reselectResult {u : Sub} {r : AcqResult} (h : CodecLoopIs b s) : CodecLoopIs b (reselectResult u r s) :=
  (h.markBarred.reselectFail.ite h.reselectFound).ite h.lookup.reselectFail

theorem searchOffer {u : Sub} {r : AcqResult} (h : CodecLoopIs b s) : CodecLoopIs b (searchOffer u r s) :=
  (h.markBarred.ite h.camp).ite h

theorem discardResult {r : AcqResult} (h : CodecLoopIs b s) : CodecLoopIs b (discardResult r s) :=
  (h.markBarred.ite h).modPgm

theorem matchItem {u : Sub} {k : IdKind} {i : PageItem} (h : CodecLoopIs b s) : CodecLoopIs b (matchItem u k i s).1 :=
  h.foldl fun _ _ => checkIdentity

theorem pageItem {u : Sub} {i : PageItem} {x : State × PageTally} (h : CodecLoopIs b x.1) :
    CodecLoopIs b (pageItem u i x).1 := by
  obtain ⟨s, tally⟩ := x
  unfold Machine.pageItem
  dsimp only
  split
  · exact h.modPgm
  · split
    case h_1 hmatch =>
      have hread := h.matchItem.of_fst hmatch
      split
      · exact hread.post
      · exact hread.modPgm
    case h_2 hmatch =>
      have hread := h.matchItem.of_fst hmatch
      split
      case h_1 hscreen =>
        split
        · exact (hread.screeningCheck.of_fst hscreen).post
        · exact hread.screeningCheck.of_fst hscreen
      case h_2 hscreen =>
        have hscreened := (hread.screeningCheck.of_fst hscreen).post
          (kind := .screened) (u := some u) (a1 := i.base) (a2 := i.ref)
        split
        · exact hscreened
        · exact hscreened

theorem appendItems {p : Claim → Bool} {l : List ReplyItem} (h : CodecLoopIs b s) : CodecLoopIs b (appendItems p l s) :=
  h.via (appendItems_changes p l s)

theorem insertReply {u : Sub} {start : Nat} {items : List ReplyItem} (h : CodecLoopIs b s) :
    CodecLoopIs b (insertReply u start items s) := h.insertClaim.ite h.insertClaim.appendItems

theorem placePageClaims {u : Sub} {fn : Nat} {x : PageTally} (h : CodecLoopIs b s) :
    CodecLoopIs b (placePageClaims u fn x s) :=
  have hdelivery := h.ite h.insertClaim
  hdelivery.ite hdelivery.removeClaims.insertReply.modRec.syncWindow

theorem takePage {u : Sub} {fn : Nat} {l : List PageItem} (h : CodecLoopIs b s) : CodecLoopIs b (takePage u fn l s) :=
  (foldl_fst h.modRec.modPgm fun _ _ => pageItem).placePageClaims

theorem watchGranted {u : Sub} {fn : Nat} (h : CodecLoopIs b s) : CodecLoopIs b (watchGranted u fn s) :=
  h.modRec.insertReply.ite h.modRec

/-! ## Texts (R147 to R157) -/

theorem setNotice {u : Sub} {n : Notice} (h : CodecLoopIs b s) : CodecLoopIs b (setNotice u n s) :=
  h.via (setNotice_changes u n s)

theorem offerStoreReady {u : Sub} (h : CodecLoopIs b s) : CodecLoopIs b (offerStoreReady u s) :=
  h.via (offerStoreReady_changes u s)

theorem offerAnswer {p : TextPath} {u : Sub} {g : RawSegment} {a : TextAnswer} (h : CodecLoopIs b s) :
    CodecLoopIs b (offerAnswer p u g a s) := h.via (offerAnswer_changes p u g a s)

theorem joinGroup {i : Nat} {u : Sub} {g : RawSegment} {held : Option Group} (h : CodecLoopIs b s) :
    CodecLoopIs b (joinGroup i u g held s) := by
  unfold Machine.joinGroup
  split
  · exact h.modTxs.via (completeIfWhole_changes ..)
  · exact h.checkParam.modTxs.via (completeIfWhole_changes ..)

theorem refuseFull {p : TextPath} {u : Sub} {g : RawSegment} (h : CodecLoopIs b s) : CodecLoopIs b (refuseFull p u g s) :=
  h.via (refuseFull_changes p u g s)

theorem examinePermitted {p : TextPath} {u : Sub} {g : RawSegment} (h : CodecLoopIs b s) :
    CodecLoopIs b (examinePermitted p u g s) := by
  have hfill : CodecLoopIs b (fillSlot u g s) := h.via (fillSlot_changes u g s)
  unfold Machine.examinePermitted
  split
  · refine h.modTxs.ite (h.modTxs.offerAnswer.ite ?_)
    split
    · exact h.modTxs
    · exact h.refuseFull.ite hfill.joinGroup.offerAnswer
  · split
    · exact h.refuseFull
    · exact h.refuseFull.ite hfill.joinGroup.offerAnswer

theorem takeSegment {p : TextPath} {u : Sub} {g : RawSegment} (h : CodecLoopIs b s) :
    CodecLoopIs b (takeSegment p u g s) := by
  refine CodecLoopIs.ite ?_ h.modTxs
  split
  case h_1 hscreen => exact (h.screeningCheck.of_fst hscreen).modTxs.offerAnswer
  case h_2 hscreen => exact (h.screeningCheck.of_fst hscreen).examinePermitted

/-! ## Changes of subscription state (R10 to R17, R36) -/

theorem setConnected {u : Sub} {c : Bool} (h : CodecLoopIs b s) : CodecLoopIs b (setConnected u c s) := h.modRta.refreshWake

theorem setHoExec {u : Option Sub} (h : CodecLoopIs b s) : CodecLoopIs b (setHoExec u s) := h.modRta.refreshWake

theorem setState {u : Sub} {x : SubState} (h : CodecLoopIs b s) : CodecLoopIs b (setState u x s) := h.modSub

theorem setTiming {u : Sub} {x : Option Nat} (h : CodecLoopIs b s) : CodecLoopIs b (setTiming u x s) := h.modHxu

theorem dropWatch {u : Sub} (h : CodecLoopIs b s) : CodecLoopIs b (dropWatch u s) := h.modRec.removeClaims

theorem abandonReselection {u : Sub} (h : CodecLoopIs b s) : CodecLoopIs b (abandonReselection u s) :=
  h.modSub.removeClaims.ite h

theorem flushQueue {u : Sub} (h : CodecLoopIs b s) : CodecLoopIs b (flushQueue u s) := h.via (flushQueue_changes u s)

theorem linkEnd {u : Sub} (h : CodecLoopIs b s) : CodecLoopIs b (linkEnd u s) :=
  h.setConnected.idleBearers.flushQueue.openLoopOf.modSub.setTiming

theorem campFromLink {u : Sub} (h : CodecLoopIs b s) : CodecLoopIs b (campFromLink u s) :=
  h.linkEnd.setState.zeroTriggers.insertWatch

theorem enterConnecting {u : Sub} (h : CodecLoopIs b s) : CodecLoopIs b (enterConnecting u s) :=
  h.setState.abandonReselection.dropWatch.checkParam.modSub.setConnected.zeroTriggers.offerStoreReady

theorem joinQueue {u : Sub} {f : UplinkFrame} (h : CodecLoopIs b s) : CodecLoopIs b (joinQueue u f s).1 :=
  h.via (joinQueue_changes u f s)

theorem upDiscard (h : CodecLoopIs b s) : CodecLoopIs b (upDiscard s) := h.modBrt

theorem linkRequest {u : Sub} {body : Octets} (h : CodecLoopIs b s) : CodecLoopIs b (linkRequest u body s) := by
  unfold Machine.linkRequest
  dsimp only
  split
  · exact h.joinQueue
  · exact h.joinQueue
  · exact h.joinQueue
  · exact h.upDiscard
  · exact h.post.ite h.upDiscard
  · refine h.post.ite ?_
    split
    case h_1 hjoined => exact (h.joinQueue.of_fst hjoined).enterConnecting
    case h_2 hfull => exact h.joinQueue.of_fst hfull

theorem linkGrant {u : Sub} (h : CodecLoopIs b s) : CodecLoopIs b (linkGrant u s) := h.modSub.startGap.ite h

theorem connectTimeout {u : Sub} (h : CodecLoopIs b s) : CodecLoopIs b (connectTimeout u s) := h.campFromLink.post

theorem guardStep {u : Sub} (h : CodecLoopIs b s) : CodecLoopIs b (guardStep u s) := by
  unfold Machine.guardStep
  split
  · exact h.connectTimeout.ite h.modSub
  · exact h

theorem enterSearch {u : Sub} (h : CodecLoopIs b s) : CodecLoopIs b (enterSearch u s) :=
  h.setState.removeClaims.releaseServing.modSub.modRec.startSearch

theorem lossOfService {u : Sub} (h : CodecLoopIs b s) : CodecLoopIs b (lossOfService u s) := by
  unfold Machine.lossOfService
  dsimp only
  split
  · exact h.abandonReselection.post.enterSearch
  · exact h.linkEnd.post.enterSearch
  · exact h.linkEnd.post.enterSearch
  · exact h

theorem endVoice {u : Sub} (h : CodecLoopIs b s) : CodecLoopIs b (endVoice u s) :=
  h.idleBearers.restartOcc.ite h.idleBearers

theorem watermarkTest (h : CodecLoopIs b s) : CodecLoopIs b (watermarkTest s) := h.via (watermarkTest_changes s)

theorem discardOpen {p : Group → Bool} (h : CodecLoopIs b s) : CodecLoopIs b (discardOpen p s) :=
  h.via (discardOpen_changes p s)

theorem detach {u : Sub} (h : CodecLoopIs b s) : CodecLoopIs b (detach u s) :=
  have hlink := h.setState.removeClaims.setConnected.detachCells.endVoice.flushQueue.openLoopOf
  have hrecord := hlink.setNotice.modSub.leaveSearch.modRec.setTiming.discardOpen
  hrecord.watermarkTest.ite hrecord

/-! ## Handover (R113 to R124) -/

theorem cntHxu {f : HxuCounters → HxuCounters} (h : CodecLoopIs b s) : CodecLoopIs b (s.cntHxu f) := h

theorem setFrozen {x : Bool} (h : CodecLoopIs b s) : CodecLoopIs b (setFrozen x s) := h.modCtb

theorem forward {f : Forward} (h : CodecLoopIs b s) : CodecLoopIs b (forward f s) := h.via (forward_changes f s)

theorem acceptOrder {u : Sub} {target : Key} {guard : Nat} (h : CodecLoopIs b s) :
    CodecLoopIs b (acceptOrder u target guard s) := by
  unfold Machine.acceptOrder
  refine CodecLoopIs.holdBearers (setHoExec (setState (modHxu (modHxu (setFrozen ?_)))))
  split
  · exact h.lookupOrAllocate.modCell
  · exact h.lookupOrAllocate

theorem ignoreOrder {u : Option Sub} {target : Key} {guard cause : Nat} (h : CodecLoopIs b s) :
    CodecLoopIs b (ignoreOrder u target guard cause s) := (h.post.ite h.post).modHxu.forward

theorem takeOrder {u : Option Sub} {target : Key} {guard : Nat} (h : CodecLoopIs b s) :
    CodecLoopIs b (takeOrder u target guard s) := by
  unfold Machine.takeOrder
  split
  · exact h.ignoreOrder
  · exact h.acceptOrder
  · exact h

theorem releasePins (h : CodecLoopIs b s) : CodecLoopIs b (releasePins s) := h.releaseTarget.setFrozen

theorem clearRun (h : CodecLoopIs b s) : CodecLoopIs b (clearRun s) := h.modHxu.modPgm

theorem writeTrigger {u : Sub} {x : TrigRec} (h : CodecLoopIs b s) : CodecLoopIs b (writeTrigger u s x) :=
  h.useCell.modCell.ite h.useCell

theorem writeTriggers {r : HoRun} (h : CodecLoopIs b s) : CodecLoopIs b (writeTriggers r s) := by
  refine h.foldl fun u k hu => ?_
  split
  · exact hu.writeTrigger
  · exact hu

theorem applyLoop {r : HoRun} (h : CodecLoopIs b s) : CodecLoopIs b (applyLoop r s) := h.closeRadioLoop.ite h.openRadioLoop

theorem backToConnected {u : Sub} (h : CodecLoopIs b s) : CodecLoopIs b (backToConnected u s) :=
  h.setHoExec.setState.startGap.resumeBearers

theorem placeHead {u : Sub} {f : UplinkFrame} (h : CodecLoopIs b s) : CodecLoopIs b (placeHead u f s) :=
  h.via (placeHead_changes u f s)

theorem restore {r : HoRun} {cause : Nat} (h : CodecLoopIs b s) : CodecLoopIs b (restore r cause s) := by
  unfold Machine.restore
  exact h.releasePins.writeTriggers.checkParam.givePenalty.applyLoop.placeHead.clearRun.backToConnected.post.cntHxu

theorem commitRecord {r : HoRun} (h : CodecLoopIs b s) : CodecLoopIs b (commitRecord r s) := by
  unfold Machine.commitRecord
  split
  · exact h.setServing
  · exact h.modSub

theorem commitOn {r : HoRun} {i timing : Nat} (h : CodecLoopIs b s) : CodecLoopIs b (commitOn r i timing s) := by
  unfold Machine.commitOn
  refine CodecLoopIs.cntHxu (CodecLoopIs.post (setTiming (CodecLoopIs.zeroTriggers (placeHead ?_))))
  exact h.checkParam.pinServing.releasePins.commitRecord.clearRun.backToConnected

theorem commit {r : HoRun} {timing : Nat} (h : CodecLoopIs b s) : CodecLoopIs b (commit r timing s) := by
  unfold Machine.commit
  split
  case h_1 hmiss => exact (h.modHxu.lookup.of_fst hmiss).restore
  case h_2 hhit => exact (h.modHxu.lookup.of_fst hhit).restore.ite (h.modHxu.lookup.of_fst hhit).commitOn

theorem abandon {r : HoRun} (h : CodecLoopIs b s) : CodecLoopIs b (abandon r s) :=
  h.releasePins.writeTriggers.clearRun.setHoExec.campFromLink.modHxu

theorem hoGuardStep (h : CodecLoopIs b s) : CodecLoopIs b (hoGuardStep s) := by
  unfold Machine.hoGuardStep
  split
  · exact h
  · exact h.restore.ite h.modHxu

theorem takeNotice (h : CodecLoopIs b s) : CodecLoopIs b (takeNotice s) := by
  unfold Machine.takeNotice
  dsimp only
  split
  · exact h.modHxu.restore
  · exact h.modHxu

theorem countUnused (h : CodecLoopIs b s) : CodecLoopIs b (countUnused s) := h.modHxu

theorem takeSync {u : Sub} {k : Key} {x : SyncResult} {timing : Nat} (h : CodecLoopIs b s) :
    CodecLoopIs b (takeSync u k x timing s) := by
  unfold Machine.takeSync
  split
  · refine CodecLoopIs.ite ?_ h.countUnused
    split
    · exact h.commit
    · exact h.restore
  · exact h.setTiming.ite h.countUnused
  · exact h.setTiming.ite h.countUnused
  · exact h.countUnused

theorem linkRelease {u : Sub} (h : CodecLoopIs b s) : CodecLoopIs b (linkRelease u s) := by
  unfold Machine.linkRelease
  split
  · exact h.campFromLink
  · exact h.campFromLink
  · exact h.abandon
  · exact h

/-! ## Reports (R76 to R89) -/

theorem reportEntry {k : Key} {d : Bool} (h : CodecLoopIs b s) : CodecLoopIs b (reportEntry k d s).1 := by
  unfold Machine.reportEntry
  split
  case h_1 hhit => exact h.lookup.of_fst hhit
  case h_2 hmiss =>
    split
    · exact (h.lookup.of_fst hmiss).allocate
    · exact h.lookup.of_fst hmiss

theorem reportCell {u : Sub} {p : Param} {x : State × List (Nat × Key)} {c : RawCell} (h : CodecLoopIs b x.1) :
    CodecLoopIs b (reportCell u p x c).1 := by
  unfold Machine.reportCell
  dsimp only
  split
  case h_1 hnone => exact (h.reportEntry.of_fst hnone).modMfu
  case h_2 hsome => exact (h.reportEntry.of_fst hsome).modCell

theorem sweepOne {u : Sub} {limit : Nat} {seen : List (Nat × Key)} {x : State × Bool} {i : Nat} (h : CodecLoopIs b x.1) :
    CodecLoopIs b (sweepOne u limit seen x i).1 := by
  unfold Machine.sweepOne
  dsimp only
  split
  · exact h.useCell
  · split
    · exact h.useCell.modCell
    · split
      · exact h.useCell.modCell
      · split
        · exact h.useCell.modCell.releaseTest
        · exact h.useCell.modCell

theorem sweep {u : Sub} {limit : Nat} {seen : List (Nat × Key)} (h : CodecLoopIs b s) :
    CodecLoopIs b (sweep u limit seen s).1 := foldl_fst (p := (s, false)) h fun _ _ => sweepOne

theorem weakStep {u : Sub} {p : Param} (h : CodecLoopIs b s) : CodecLoopIs b (weakStep u p s) := by
  refine CodecLoopIs.ite ?_ h
  split
  · exact h
  · exact h.ite (h.modSub.startWeakGap.ite h.modSub)

theorem triggerOne {u : Sub} {c : Bool} {holds : Cell → Bool} {seen : List (Nat × Key)} {i : Nat} (h : CodecLoopIs b s) :
    CodecLoopIs b (triggerOne u c holds seen s i) :=
  have huse := h.useCell (i := i)
  (huse.modCell.ite ((huse.ite huse.modCell).ite (huse.modCell.ite huse.modCell))).ite huse

theorem idleTrigger {u : Sub} {p : Param} {i : Nat} {seen : List (Nat × Key)} (h : CodecLoopIs b s) :
    CodecLoopIs b (idleTrigger u p i seen s) := by
  unfold Machine.idleTrigger
  dsimp only
  split
  · exact h.foldl fun _ _ => triggerOne
  · exact (h.foldl fun _ _ => triggerOne).modMfu.takeOffer

theorem connTrigger {u : Sub} {p : Param} {i : Nat} {seen : List (Nat × Key)} (h : CodecLoopIs b s) :
    CodecLoopIs b (connTrigger u p i seen s) := by
  have hcounts := h.foldl (l := allEntries) (f := Machine.triggerOne u true
    (connHolds u (rank (cellAt s i) + 4 * (p.hoMargin : Int))) seen) fun _ _ => triggerOne
  unfold Machine.connTrigger
  dsimp only
  split
  · split
    case h_1 hjoined => exact (hcounts.modMfu.joinQueue.of_fst hjoined).via (markReported_changes ..)
    case h_2 hfull => exact (hcounts.modMfu.joinQueue.of_fst hfull).modMfu
  · exact hcounts

theorem triggerStep {u : Sub} {p : Param} {seen : List (Nat × Key)} (h : CodecLoopIs b s) :
    CodecLoopIs b (triggerStep u p seen s) := by
  unfold Machine.triggerStep
  split
  · exact h
  · split
    · exact h.useCell.ite h.useCell.idleTrigger
    · exact h.useCell.ite h.useCell.connTrigger
    · exact h

theorem penaltyStep {u : Sub} (h : CodecLoopIs b s) : CodecLoopIs b (penaltyStep u s) :=
  h.foldl fun _ _ ht => (ht.useCell.modCell.ite ht.useCell).ite ht

theorem reportAll {u : Sub} {p : Param} {l : List RawCell} (h : CodecLoopIs b s) :
    CodecLoopIs b (l.foldl (Machine.reportCell u p) (s, [])).1 := foldl_fst (p := (s, [])) h fun _ _ => reportCell

theorem takeReport {u : Sub} {cells : List RawCell} (h : CodecLoopIs b s) : CodecLoopIs b (takeReport u cells s) := by
  unfold Machine.takeReport
  dsimp only
  refine CodecLoopIs.penaltyStep (triggerStep (weakStep (CodecLoopIs.ite ?_ ?_)))
  · exact h.checkParam.modMfu.reportAll.sweep.lossOfService
  · exact h.checkParam.modMfu.reportAll.sweep

/-! ## Frame starts and marks (R19 to R52) -/

theorem missClaim {c : Claim} (h : CodecLoopIs b s) : CodecLoopIs b (missClaim c s) :=
  h.removeClaims.missedEffect.renewClaim.ite h

theorem loseFrame {w : Cand} (h : CodecLoopIs b s) : CodecLoopIs b (loseFrame s w) := by
  unfold Machine.loseFrame
  split
  · exact h.modRta.ite h
  · exact h.missClaim.ite (h.modRta.ite h)

theorem sendFl {x : FlFrame} (h : CodecLoopIs b s) : CodecLoopIs b (sendFl x s) := h.via (sendFl_changes x s)

theorem sendVoice {u : Sub} {fn : Nat} (h : CodecLoopIs b s) : CodecLoopIs b (sendVoice u fn s) := by
  unfold Machine.sendVoice
  split
  · exact h
  · exact h.modVpb.countUpDiscarded.ite h.modVpb.sendFl.cntVpb

theorem grantedClaim {g : Grant} {c : Claim} (h : CodecLoopIs b s) : CodecLoopIs b (grantedClaim g c s) := by
  have hmap : CodecLoopIs b (mapClaims (bySerial c.serial) (fun c => { c with granted := min (c.granted + 1) c.length })
      s) := h.via (mapClaims_changes ..)
  unfold Machine.grantedClaim
  dsimp only
  split
  case h_1 =>
    split
    · exact (hmap.modSub.removeClaims.via (tuneAway_changes ..)).watchGranted.renewWatch
    · exact hmap.modSub.removeClaims.watchGranted.renewWatch
  case h_2 => exact hmap.removeClaims.via (sendReply_changes ..)
  case h_3 => exact hmap.removeClaims.renewClaim
  case h_4 => exact hmap.removeClaims.ite hmap
  case h_5 => exact hmap.removeClaims.renewClaim.ite hmap
  case h_6 => exact hmap

theorem grantSent {g : Grant} (h : CodecLoopIs b s) : CodecLoopIs b (grantSent g s) := by
  unfold Machine.grantSent
  dsimp only
  split
  · split
    · exact (h.sendFl.via (drainQueue_changes ..)).sendVoice
    · exact h.sendFl
  · split
    · exact h.sendFl.grantedClaim
    · exact h.sendFl

theorem passGrant {g : Grant} (h : CodecLoopIs b s) : CodecLoopIs b (passGrant g s) := by
  unfold Machine.passGrant
  split
  · exact h.grantSent
  · exact h.modFtb
  · exact h.powerOn.modFtb

theorem voiceDecision {w : Option Cand} (h : CodecLoopIs b s) : CodecLoopIs b (voiceDecision w s) := by
  unfold Machine.voiceDecision
  split
  · exact h
  · dsimp only
    split
    · exact h.modVpb
    · exact h.modVpb.countUpDiscarded

theorem grantDecision (h : CodecLoopIs b s) : CodecLoopIs b (grantDecision s) := by
  unfold Machine.grantDecision
  split
  · exact h.voiceDecision
  · exact (h.modRta.foldl fun _ _ => loseFrame).voiceDecision.passGrant

theorem spendBudget {u : Sub} (h : CodecLoopIs b s) : CodecLoopIs b (spendBudget u s) :=
  h.modRta.acquisitionSpent.startSearchIfDue.ite h

theorem duePart {old : State} {u : Sub} (h : CodecLoopIs b s) : CodecLoopIs b (duePart old u s) :=
  have hwatch := h.modRec.renewWatch.ite h
  have hgap := hwatch.modRec.renewGap.ite hwatch
  hgap.startSearchIfDue.ite hgap

theorem dueRenewals {old : State} (h : CodecLoopIs b s) : CodecLoopIs b (dueRenewals old s) :=
  h.duePart.duePart.renewSearch.ite h.duePart.duePart

theorem offerAtFrameStart {old : State} {u : Sub} (h : CodecLoopIs b s) : CodecLoopIs b (offerAtFrameStart old u s) :=
  h.ite h.offerStoreReady

theorem expiryStep (h : CodecLoopIs b s) : CodecLoopIs b (expiryStep s) := h.via (expiryStep_changes s)

theorem beforeDecision (h : CodecLoopIs b s) :
    CodecLoopIs b (dropEmptyReplies (Machine.spendBudget .B (Machine.spendBudget .A (resort (beginReacquires s))))) :=
  ((h.via (beginReacquires_changes s)).via (resort_changes _)).spendBudget.spendBudget.via (dropEmptyReplies_changes _)

theorem frameStart (h : CodecLoopIs b s) : CodecLoopIs b (frameStart s) := by
  unfold Machine.frameStart
  refine CodecLoopIs.refreshWake (hoGuardStep (guardStep (guardStep (expiryStep ?_))))
  exact h.checkParam.checkParam.beforeDecision.grantDecision.dueRenewals.powerDownTest.offerAtFrameStart.offerAtFrameStart

theorem failedGrant {g : Grant} (h : CodecLoopIs b s) : CodecLoopIs b (failedGrant g s) := by
  unfold Machine.failedGrant
  split
  · exact h.modRta.ite h
  · split
    · exact h.missClaim
    · exact h

theorem dropBound (h : CodecLoopIs b s) : CodecLoopIs b (dropBound s) := by
  unfold Machine.dropBound
  split
  · exact h.modVpb.countUpDiscarded
  · exact h

theorem closeFrame (h : CodecLoopIs b s) : CodecLoopIs b (closeFrame s) := by
  unfold Machine.closeFrame
  split
  · exact h.sendFl.post.modFtb.dropBound.failedGrant.modFtb
  · exact h

theorem nextSleepFrame (h : CodecLoopIs b s) : CodecLoopIs b (nextSleepFrame s) := h.modFtb.drawCurrent.frameStart

theorem boundary (h : CodecLoopIs b s) : CodecLoopIs b (boundary s) := h.closeFrame.nextSleepFrame

theorem watchdogExpiry (h : CodecLoopIs b s) : CodecLoopIs b (watchdogExpiry s) := by
  unfold Machine.watchdogExpiry
  dsimp only
  split
  · exact h.modFtb.powerOff.post.nextSleepFrame
  · exact h.modFtb.powerOff.post.refreshWake

theorem countStray (h : CodecLoopIs b s) : CodecLoopIs b (countStray s) := h.modFtb

theorem takeReady (h : CodecLoopIs b s) : CodecLoopIs b (takeReady s) := by
  unfold Machine.takeReady
  split
  · dsimp only
    split
    · exact h.modFtb.grantSent
    · exact h.modFtb
  · exact h.countStray

theorem jumpOne {old carried : Nat} {c : Claim} (h : CodecLoopIs b s) : CodecLoopIs b (jumpOne old carried s c) :=
  have hlost : CodecLoopIs b (loseJumped old carried c s) := h.modRta.ite h
  (CodecLoopIs.ite (h.via (mapClaims_changes ..)) h).ite ((h.modRta.missClaim.ite hlost).ite h)

theorem jumpClaims {old carried : Nat} (h : CodecLoopIs b s) : CodecLoopIs b (jumpClaims old carried s) :=
  h.foldl fun _ _ => jumpOne

theorem markFrame {first : Bool} {expected carried : Nat} (h : CodecLoopIs b s) :
    CodecLoopIs b (markFrame first expected carried s) :=
  have hcounted := h.modFtb.modFtb.post.ite h.modFtb.modFtb
  (h.modFtb.ite (hcounted.jumpClaims.ite hcounted)).frameStart

theorem takeMark {carried : Nat} (h : CodecLoopIs b s) : CodecLoopIs b (takeMark carried s) := by
  unfold Machine.takeMark
  split
  · exact h.modFtb.ite h.modFtb.markFrame
  · exact h.countStray

theorem runWatchdog {k : Nat} (h : CodecLoopIs b s) : CodecLoopIs b (runWatchdog k s) := by
  unfold Machine.runWatchdog
  split
  · exact h
  · exact h.watchdogExpiry.ite h.modFtb

theorem frameElapses {len : Nat} (h : CodecLoopIs b s) : CodecLoopIs b (frameElapses len s) :=
  (h.powerOn.ite h).modFtb.runWatchdog.boundary

/-! ## The effects of commands -/

theorem markWatchdogEffect (h : CodecLoopIs b s) : CodecLoopIs b (markWatchdogEffect s) := h.watchdogExpiry.ite h

theorem warmUpFailureEffect (h : CodecLoopIs b s) : CodecLoopIs b (warmUpFailureEffect s) := by
  unfold Machine.warmUpFailureEffect
  split
  · exact h.frameElapses.ite h
  · exact h

theorem hoGuardExpiryEffect (h : CodecLoopIs b s) : CodecLoopIs b (hoGuardExpiryEffect s) := by
  unfold Machine.hoGuardExpiryEffect
  split
  · exact h.restore.ite h
  · exact h

theorem reacquireSpentEffect {u : Sub} (h : CodecLoopIs b s) : CodecLoopIs b (reacquireSpentEffect u s) :=
  h.spendBudget.refreshWake.ite h

theorem pageEffect {u : Option Sub} {fn : Nat} {l : List PageItem} (h : CodecLoopIs b s) :
    CodecLoopIs b (pageEffect u fn l s) := by
  unfold Machine.pageEffect
  dsimp only
  split
  · exact h.modPgm
  · exact h.takePage.ite h.modPgm

theorem summaryFor {u : Sub} {k : Key} {x : Summary} (h : CodecLoopIs b s) : CodecLoopIs b (summaryFor u k x s) :=
  h.checkParam.setServing.followRhythm.ite h

theorem summaryEffect {k : Key} {tCell g area : Nat} {barred : Bool} (h : CodecLoopIs b s) :
    CodecLoopIs b (summaryEffect k tCell g area barred s) := by
  refine CodecLoopIs.ite ?_ h.modPgm
  dsimp only
  refine CodecLoopIs.ite ?_ h.writeBarred.modPgm
  exact h.writeBarred.summaryFor.summaryFor.modPgm.ite h.writeBarred.summaryFor.summaryFor

theorem reportEffect {u : Option Sub} {cells : List RawCell} (h : CodecLoopIs b s) :
    CodecLoopIs b (reportEffect u cells s) := by
  unfold Machine.reportEffect
  dsimp only
  split
  · exact h.modMfu
  · exact h.modMfu.ite h.takeReport

theorem reacquireResult {u : Sub} {r : AcqResult} (h : CodecLoopIs b s) : CodecLoopIs b (reacquireResult u r s) := by
  refine CodecLoopIs.ite ?_ h.discardResult
  split
  · exact h.removeClaims.initialResult
  · exact h.removeClaims.reselectResult.ite h.discardResult
  · exact h.discardResult

theorem acqEffect {r : AcqResult} (h : CodecLoopIs b s) : CodecLoopIs b (acqEffect r s) := by
  refine CodecLoopIs.ite ?_ h.modPgm
  split
  · exact h.reacquireResult
  · exact h.searchOffer.ite h.discardResult
  · exact h.searchOffer.searchOffer.ite h.discardResult
  · exact h.discardResult

theorem syncEffect {u : Option Sub} {k : Key} {x : Option SyncResult} {timing : Nat} (h : CodecLoopIs b s) :
    CodecLoopIs b (syncEffect u k x timing s) := by
  unfold Machine.syncEffect
  split
  · exact h.takeSync.ite h.countUnused
  · exact h.countUnused

theorem idleTextEffect {u : Option Sub} {fn : Nat} {g : RawSegment} (h : CodecLoopIs b s) :
    CodecLoopIs b (idleTextEffect u fn g s) := by
  unfold Machine.idleTextEffect
  dsimp only
  split
  · exact h.modTxs
  · exact h.takeSegment.ite h.modTxs

theorem linkGrantEffect {u : Option Sub} {body : Octets} (h : CodecLoopIs b s) :
    CodecLoopIs b (linkGrantEffect u body s) := by
  unfold Machine.linkGrantEffect
  split
  · exact h.linkGrant.forward
  · exact h.forward

theorem linkReleaseEffect {u : Option Sub} {body : Octets} (h : CodecLoopIs b s) :
    CodecLoopIs b (linkReleaseEffect u body s) := by
  unfold Machine.linkReleaseEffect
  split
  · exact h.linkRelease.forward
  · exact h.forward

theorem loopOrderEffect {u : Option Sub} {close : Bool} (h : CodecLoopIs b s) :
    CodecLoopIs b (loopOrderEffect u close s) := by
  unfold Machine.loopOrderEffect
  dsimp only
  split
  · exact h.cntVpb.forward
  · exact (h.checkParam.closeRadioLoop.ite h.checkParam.openRadioLoop).ite h.checkParam.cntVpb.forward

theorem routeByClass {e : Bearer} {i seq : Nat} {payload : Octets} {text : Option RawSegment} (h : CodecLoopIs b s) :
    CodecLoopIs b (routeByClass e i seq payload text s) := by
  unfold Machine.routeByClass
  split
  · exact h.takeDownlinkVoice
  · split
    · exact h.takeSegment
    · exact h.modTxs
  · exact h.forward
  · exact h.forward

theorem downDiscard (h : CodecLoopIs b s) : CodecLoopIs b (downDiscard s) := h.modBrt

theorem downTrafficEffect {u : Option Sub} {i seq : Nat} {payload : Octets} {text : Option RawSegment}
    (h : CodecLoopIs b s) : CodecLoopIs b (downTrafficEffect u i seq payload text s) := by
  unfold Machine.downTrafficEffect
  split
  · exact h.downDiscard
  · have huse := h.checkBearer (i := i)
    exact h.downDiscard.ite (huse.modBrt.forward.ite (huse.downDiscard.ite (huse.downDiscard.ite huse.routeByClass)))

theorem upTrafficEffect {u : Option Sub} {i : Nat} {payload : Octets} (h : CodecLoopIs b s) :
    CodecLoopIs b (upTrafficEffect u i payload s) := by
  unfold Machine.upTrafficEffect
  split
  · exact h.upDiscard
  · have huse := h.checkBearer (i := i)
    exact h.upDiscard.ite ((huse.modBrt.joinQueue.ite huse.upDiscard).ite (huse.joinQueue.ite huse.upDiscard))

theorem linkRequestEffect {u : Option Sub} {body : Octets} (h : CodecLoopIs b s) :
    CodecLoopIs b (linkRequestEffect u body s) := by
  unfold Machine.linkRequestEffect
  split
  · exact h.upDiscard
  · exact h.linkRequest

/-! ## The management requests (R69 to R70, R177, R178, R185) -/

theorem answer {q : Request} {tag : Nat} {st : Status} {p : Payload} (h : CodecLoopIs b s) :
    CodecLoopIs b (answer q tag st p s) := h.via (answer_changes q tag st p s)

theorem writeGlobal {tag first : Nat} {l : List GlobalWrite} (h : CodecLoopIs b s) :
    CodecLoopIs b (writeGlobal tag first l s) := by
  have hstore {e : GlobalEntry} : CodecLoopIs b (storeGlobal e s) := (h.modTab.ite h.modTab.restartOcc).setWakeInstant
  unfold Machine.writeGlobal
  split
  · split
    · exact h.answer
    · exact hstore.answer
  · exact h.answer
  · exact h.answer

theorem storeParam {i : Nat} {w : ParamWrite} (h : CodecLoopIs b s) : CodecLoopIs b (storeParam i w s) :=
  h.modTab.paramChanged

theorem writeParam {tag first : Nat} {l : List ParamWrite} (h : CodecLoopIs b s) :
    CodecLoopIs b (writeParam tag first l s) := by
  unfold Machine.writeParam
  split
  · exact h.answer
  · exact (h.writeFrom fun _ _ _ => storeParam).answer

theorem writeIdentity {tag first : Nat} {l : List IdentityWrite} (h : CodecLoopIs b s) :
    CodecLoopIs b (writeIdentity tag first l s) := by
  unfold Machine.writeIdentity
  split
  · exact h.answer
  · have hwrite : CodecLoopIs b (Machine.writeFrom storeIdentity first (l.filterMap identityOfWrite) s) :=
      h.writeFrom fun _ _ _ ht => ht.modTab
    exact ((hwrite.rekey.ite hwrite).rekey.ite (hwrite.rekey.ite hwrite)).answer.ite h.answer

theorem checkBearers {p : Nat → Bool} (h : CodecLoopIs b s) : CodecLoopIs b (checkBearers p s) :=
  h.foldl fun _ _ ht => ht.checkBearer.ite ht

theorem followVoice (h : CodecLoopIs b s) : CodecLoopIs b (followVoice s) := by
  unfold Machine.followVoice
  split
  · exact h.endPlayout
  · exact h.activatePlayout
  · exact h.ite h.endPlayout.activatePlayout

theorem writeBearers {tag first : Nat} {l : List Bearer} (h : CodecLoopIs b s) :
    CodecLoopIs b (writeBearers tag first l s) :=
  have hread := h.checkBearers
  have hwrite := hread.writeFrom (f := storeBearer) fun _ _ _ ht => ht.modTab
  hread.answer.ite hwrite.followVoice.answer

theorem testBearers {tag first : Nat} {l : List Bearer} (h : CodecLoopIs b s) : CodecLoopIs b (testBearers tag first l s) :=
  h.answer.ite (h.answer.ite h.writeBearers)

theorem writeBearer {tag first : Nat} {l : List BearerWrite} (h : CodecLoopIs b s) :
    CodecLoopIs b (writeBearer tag first l s) := by
  unfold Machine.writeBearer
  split
  · exact h.answer
  · exact h.answer.ite (h.answer.ite h.checkBearers.testBearers)

theorem readEntry {x : TableId} {i : Nat} (h : CodecLoopIs b s) : CodecLoopIs b (readEntry x i s).1 := by
  cases x with
  | global => exact h.useGlobal
  | param => exact h.checkParam
  | identity => exact h.checkIdentity
  | screen => exact h.via (checkScreen_changes i s)
  | bearer => exact h.checkBearer
  | eventClass =>
    unfold Machine.readEntry
    dsimp only
    split
    · exact h
    · exact h.via (checkClass_changes i s)
  | cell => exact h.useCell
  | claims => exact h
  | substate => exact h
  | fallback => exact h

theorem readAll {x : TableId} {l : List Nat} (h : CodecLoopIs b s) : CodecLoopIs b (readAll x l s).1 := by
  induction l generalizing s with
  | nil => exact h
  | cons i l ih => exact ih h.readEntry

theorem readTable {tag first n : Nat} {x : TableId} (h : CodecLoopIs b s) : CodecLoopIs b (readTable tag x first n s) :=
  h.readAll.modAlc.answer

theorem tableReadEffect {tag table count : Nat} {first : Option Nat} (h : CodecLoopIs b s) :
    CodecLoopIs b (tableReadEffect tag table first count s) := by
  unfold Machine.tableReadEffect
  split
  · exact h.answer
  · refine h.answer.ite ?_
    split
    · exact h.answer.ite h.readTable
    · exact h.readTable

theorem cellPutEffect {tag : Nat} {k : Key} {barred : Bool} {offset : Int} (h : CodecLoopIs b s) :
    CodecLoopIs b (cellPutEffect tag k barred offset s) := by
  refine h.answer.ite ?_
  dsimp only
  split
  case h_1 hhit => exact (h.lookup.of_fst hhit).modCell.answer
  case h_2 hmiss =>
    have hread := h.lookup.of_fst hmiss
    split
    case h_1 htaken => exact (hread.allocate.of_fst htaken).modCell.answer
    case h_2 hrefused => exact (hread.allocate.of_fst hrefused).answer

theorem cellDropEffect {tag : Nat} {k : Key} (h : CodecLoopIs b s) : CodecLoopIs b (cellDropEffect tag k s) := by
  refine h.answer.ite ?_
  split
  case h_1 hmiss => exact (h.lookup.of_fst hmiss).answer
  case h_2 hhit => exact (h.lookup.of_fst hhit).answer.ite (h.lookup.of_fst hhit).setCell.answer

theorem attach {u : Sub} {k : Option Key} (h : CodecLoopIs b s) : CodecLoopIs b (attach u k s) := by
  unfold Machine.attach
  split
  · exact h.modSub.insertClaim
  · exact h.modSub.startSearch

theorem subAttachEffect {tag : Nat} {u : Option Sub} {k : Option Key} (h : CodecLoopIs b s) :
    CodecLoopIs b (subAttachEffect tag u k s) := by
  unfold Machine.subAttachEffect
  split
  · exact h.answer
  · exact h.answer.ite (h.answer.ite h.attach.answer)

theorem subDetachEffect {tag : Nat} {u : Option Sub} (h : CodecLoopIs b s) : CodecLoopIs b (subDetachEffect tag u s) := by
  unfold Machine.subDetachEffect
  split
  · exact h.answer
  · split
    · exact h.answer
    · exact h.answer
    · exact h.detach.answer

theorem clearCounters (h : CodecLoopIs b s) : CodecLoopIs b (clearCounters s) := h

theorem statsTakeEffect {tag clear : Nat} (h : CodecLoopIs b s) : CodecLoopIs b (statsTakeEffect tag clear s) :=
  have hread := h.useGlobal
  have hclear := hread.clearCounters.ite hread
  h.answer.ite (hclear.restartOcc.ite hclear).answer

/-! ## The end of a command -/

theorem pump (h : CodecLoopIs b s) : CodecLoopIs b (pump s) := h.via (pump_changes s)

theorem of_finish (h : CodecLoopIs b s) (ht : finish s = .next t) : CodecLoopIs b t := by
  obtain rfl : Machine.pump s = t := Host.Outcome.next.inj ht
  exact h.pump

/-- A frame that arrives while the link is DOWN is only counted, so its effect matters while the link is UP (R174). -/
theorem of_onAl {f : State → State} (h : CodecLoopIs b s) (hf : CodecLoopIs b (f s)) (ht : onAl s f = .next t) :
    CodecLoopIs b t := by
  unfold onAl at ht
  split at ht
  · exact hf.of_finish ht
  · obtain rfl := Host.Outcome.next.inj ht
    exact h.via (cntAlc_changes ..)

end CodecLoopIs
end

/-- No command but VOICE_LOOP and the two resets changes CODEC_LOOP (R167): arm by arm, what the effect keeps. -/
theorem exec_keepsCodecLoop {c : Instr} {s t : State} (ht : exec c s = .next t) (hv : ∀ tag b, c ≠ .voiceLoop tag b)
    (hp : c ≠ .powerOnReset) (hw : ∀ tag, c ≠ .warmReset tag) : CodecLoopIs s.vpb.codecLoop t := by
  have h : CodecLoopIs s.vpb.codecLoop s := rfl
  cases c with
  | powerOnReset => exact absurd rfl hp
  | voiceLoop tag x => exact absurd rfl (hv tag x)
  | warmReset tag => exact absurd rfl (hw tag)
  | linkReadyChange x => exact (h.via (linkReadyEffect_changes x s)).of_finish ht
  | sleepBoundary =>
    refine CodecLoopIs.of_finish ?_ ht
    split
    · exact h.frameElapses
    · exact h
  | frameMark fn => exact h.takeMark.of_finish ht
  | ready => exact h.takeReady.of_finish ht
  | wakeInstant => exact (h.via (wakeInstantEffect_changes s)).of_finish ht
  | markWatchdogExpiry => exact h.markWatchdogEffect.of_finish ht
  | warmUpFailure => exact h.warmUpFailureEffect.of_finish ht
  | connectGuardExpiry u => exact (h.connectTimeout.ite h).of_finish ht
  | handoverGuardExpiry => exact h.hoGuardExpiryEffect.of_finish ht
  | reacquireBudgetSpent u => exact h.reacquireSpentEffect.of_finish ht
  | groupExpiry i => exact (h.via (groupExpiryEffect_changes i s)).of_finish ht
  | targetDamageNotice => exact (h.takeNotice.ite h).of_finish ht
  | codecPeriod payload => exact h.takeCodecFrame.pull.of_finish ht
  | page u fn items => exact h.pageEffect.of_finish ht
  | summary k tCell g area barred => exact h.summaryEffect.of_finish ht
  | measReport u fn cells => exact h.reportEffect.of_finish ht
  | acqResult r => exact h.acqEffect.of_finish ht
  | syncStatus u k status timing => exact h.syncEffect.of_finish ht
  | idleText u fn g => exact h.idleTextEffect.of_finish ht
  | linkGrant u body => exact h.linkGrantEffect.of_finish ht
  | linkRelease u body => exact h.linkReleaseEffect.of_finish ht
  | handoverOrder u target guard => exact h.takeOrder.of_finish ht
  | loopOrder u close => exact h.loopOrderEffect.of_finish ht
  | downlinkControlOther u code body => exact h.forward.of_finish ht
  | downlinkTraffic u i seq payload text => exact h.downTrafficEffect.of_finish ht
  | alTransmitDone => exact (h.via (transmitDone_changes s)).of_finish ht
  | alFrameRejected l => exact h.of_onAl (h.via (rejectedEffect_changes l s)) ht
  | uplinkTraffic u i payload => exact h.of_onAl h.upTrafficEffect ht
  | linkRequest u body => exact h.of_onAl h.linkRequestEffect ht
  | uplinkControlOther u code body => exact h.of_onAl (h.via (upControlEffect_changes u code body s)) ht
  | tableWriteGlobal tag first l => exact h.of_onAl h.writeGlobal ht
  | tableWriteParam tag first l => exact h.of_onAl h.writeParam ht
  | tableWriteIdentity tag first l => exact h.of_onAl h.writeIdentity ht
  | tableWriteScreen tag first l => exact h.of_onAl (h.via (writeScreen_changes tag first l s)) ht
  | tableWriteBearer tag first l => exact h.of_onAl h.writeBearer ht
  | tableWriteEventClass tag first l => exact h.of_onAl (h.via (writeEventClass_changes tag first l s)) ht
  | tableWriteNoSuchTable tag table => exact h.of_onAl h.answer ht
  | tableRead tag table first count => exact h.of_onAl h.tableReadEffect ht
  | cellPut tag k barred offset => exact h.of_onAl h.cellPutEffect ht
  | cellDrop tag k => exact h.of_onAl h.cellDropEffect ht
  | subAttach tag u k => exact h.of_onAl h.subAttachEffect ht
  | subDetach tag u => exact h.of_onAl h.subDetachEffect ht
  | textTake tag => exact h.of_onAl (h.via (textTakeEffect_changes tag s)) ht
  | statsTake tag clear => exact h.of_onAl h.statsTakeEffect ht
  | checkInject tag table i n => exact h.of_onAl (h.via (checkInjectEffect_changes tag table i n s)) ht
  | malformedRequest tag code => exact h.of_onAl (h.via (malformedEffect_changes tag code s)) ht

/-! ## The two resets (R34, R172, R179) -/

theorem powerOnEffect_opensCodecLoop (s : State) : CodecLoopIs false (powerOnEffect s) := rfl

theorem warmBlocks_opensCodecLoop (s : State) : CodecLoopIs false (warmBlocks s) := rfl

theorem warmEffect_opensCodecLoop (tag : Nat) (s : State) : CodecLoopIs false (warmEffect tag s) := by
  have hall : CodecLoopIs false (warmAll (answer .warmReset tag .done .none s)) :=
    (warmBlocks_opensCodecLoop _).modAlc.clearCounters
  exact hall.post.via (setWake_changes _)

/-! ## Responses in the transmitter's order (R175, R176) -/

/-- The transmitter's choice moves the oldest response or forwarded frame, and leaves the order in which they go out. -/
theorem pump_trails (s : State) : responseTrail (pump s).alc = responseTrail s.alc ∧ linkQuiet s.alc (pump s).alc ∧
    (pump s).alc.cnt = s.alc.cnt := by
  unfold pump
  split
  case isTrue hfree =>
    have htx : s.alc.tx = none := by simp_all
    split
    case h_1 hr => simp [responseTrail, linkQuiet, forwardTrail, htx, hr]
    case h_2 hr =>
      split
      case h_1 hf => simp [responseTrail, linkQuiet, forwardTrail, htx, hf, hr]
      case h_2 hf =>
        split
        · simp [responseTrail, linkQuiet, forwardTrail, htx]
        · simp [linkQuiet]
  case isFalse => simp [linkQuiet]

theorem addResponse_of_room {r : Response} {s : State} (hroom : s.alc.responses.length < 16) :
    addResponse r s = s.modAlc (fun a => { a with responses := a.responses ++ [r] }) := if_pos hroom

theorem addResponse_of_full {r : Response} {s : State} (hfull : ¬ s.alc.responses.length < 16) :
    addResponse r s = s.cntAlc (fun c => { c with responsesLost := satInc c.responsesLost }) := if_neg hfull

/-- A response joins the trail or is lost, and nothing else changes on the link. -/
theorem addResponse_answers (r : Response) (s : State) : answered r s.alc.cnt s (pump (addResponse r s)) := by
  obtain ⟨htrail, ⟨hready, hup, hevents, hwake, hcursor, hforward⟩, hcnt⟩ := pump_trails (addResponse r s)
  unfold answered responded linkQuiet
  rw [htrail, hready, hup, hevents, hwake, hcursor, hforward, hcnt]
  by_cases hroom : s.alc.responses.length < 16
  · rw [addResponse_of_room hroom]
    simp [hroom, responseTrail, forwardTrail]
  · rw [addResponse_of_full hroom]
    simp [hroom, responseTrail, forwardTrail, State.cntAlc]

/-- A request answered with another status than MALFORMED. -/
theorem answer_answers {q : Request} {tag : Nat} {st : Status} {p : Payload} (s : State) (hst : st ≠ .malformed) :
    answered { tag := tag, code := q.code, status := st, payload := p } s.alc.cnt s (pump (answer q tag st p s)) := by
  unfold answer
  rw [if_neg hst]
  exact addResponse_answers ..

theorem answer_onlyChanges (q : Request) (tag : Nat) (st : Status) (p : Payload) (s : State) :
    onlyChanges [.alc] s (pump (answer q tag st p s)) :=
  (changes.step (pump_changes _) (by decide) (answer_changes q tag st p s)).onlyParts (by decide)

/-! ## What posting an event leaves of the responses, and the record it queues (R180) -/

/-- The frame in transmission, the waiting responses and the count of lost ones stay. -/
structure ResponsesKept (s t : State) : Prop where
  tx_eq : t.alc.tx = s.alc.tx
  responses_eq : t.alc.responses = s.alc.responses
  lost_eq : t.alc.cnt.responsesLost = s.alc.cnt.responsesLost

theorem ResponsesKept.trans {s t u : State} (h : ResponsesKept s t) (k : ResponsesKept t u) : ResponsesKept s u :=
  ⟨k.tx_eq.trans h.tx_eq, k.responses_eq.trans h.responses_eq, k.lost_eq.trans h.lost_eq⟩

theorem ResponsesKept.responded {r : Response} {s t u : State} (h : ResponsesKept s t) (k : responded r t u) :
    responded r s u := by
  unfold Machine.responded responseTrail at *
  rwa [h.tx_eq, h.responses_eq, h.lost_eq] at k

theorem ResponsesKept.enqueueEvent {e : EventRec} {s t : State} (h : ResponsesKept s t) :
    ResponsesKept s (enqueueEvent e t) := by
  refine h.trans ?_
  unfold Machine.enqueueEvent
  split
  · exact ⟨rfl, rfl, rfl⟩
  · split <;> exact ⟨rfl, rfl, rfl⟩
  · split
    · exact ⟨rfl, rfl, rfl⟩
    · split <;> exact ⟨rfl, rfl, rfl⟩

theorem postFuel_keepsResponses (n : Nat) (kind : EventKind) (u : Option Sub) (a1 a2 : Int) (s : State) :
    ResponsesKept s (postFuel n kind u a1 a2 s) := by
  induction n generalizing kind u a1 a2 s with
  | zero => exact ⟨rfl, rfl, rfl⟩
  | succ n ih =>
    unfold postFuel
    dsimp only
    split
    · exact .enqueueEvent ⟨rfl, rfl, rfl⟩
    · split
      · exact .enqueueEvent ⟨rfl, rfl, rfl⟩
      · exact .enqueueEvent ⟨rfl, rfl, rfl⟩
      · refine .trans ?_ (ih ..)
        exact .enqueueEvent ⟨rfl, rfl, rfl⟩

theorem enqueueEvent_events {e : EventRec} {s : State} (hcls : e.cls ≠ .suppressed) (hroom : s.alc.events.length < 32) :
    (enqueueEvent e s).alc.events = s.alc.events ++ [e] := by
  unfold enqueueEvent
  split
  case h_1 hs => exact absurd hs hcls
  all_goals
    rw [if_pos hroom]
    rfl

/-- With a class entry that lets the record in and room in the queue, the record is enqueued as it was made. -/
theorem post_of_postable {kind : EventKind} {u : Option Sub} {a1 a2 : Int} {s : State} (h : postable s kind) :
    ∃ c : EventClass, c ≠ .suppressed ∧
      post kind u a1 a2 s = enqueueEvent { kind := kind, cls := c, sub := u, fn := s.ftb.fn, arg1 := a1, arg2 := a2 } s := by
  obtain ⟨hclass, -⟩ := h
  unfold post postFuel
  by_cases hd : (classEntry s kind.code).damaged = true
  · exact ⟨.urgent, by decide, by simp [hd]⟩
  · obtain ⟨hgood, hval⟩ := hclass.resolve_left hd
    exact ⟨_, hval, by simp [hd, hgood]⟩

theorem post_queues {kind : EventKind} {u : Option Sub} {a1 a2 : Int} {s : State} (h : postable s kind) :
    queued s (post kind u a1 a2 s) kind u a1 a2 := by
  obtain ⟨c, hc, hpost⟩ := post_of_postable (u := u) (a1 := a1) (a2 := a2) h
  rw [hpost]
  unfold queued
  rw [enqueueEvent_events hc h.2]
  exact ⟨_, List.mem_append_right _ (List.mem_singleton.mpr rfl), rfl, rfl, rfl, rfl, rfl⟩

/-! ## VOICE_LOOP (R167) -/

theorem exec_voiceLoop {s : State} (tag : Nat) (setting : Option Bool) (hup : s.alc.up = true) :
    exec (.voiceLoop tag setting) s = .next (pump (voiceLoopEffect tag setting s)) := if_pos hup

/-- CODEC_LOOP written, nothing posted yet. -/
def withCodecLoop (b : Bool) (s : State) : State := s.modVpb (fun v => { v with codecLoop := b })

theorem setCodecLoop_same {b : Bool} {s : State} (h : s.vpb.codecLoop = b) : setCodecLoop b s = s := if_pos h

theorem setCodecLoop_change {b : Bool} {s : State} (h : s.vpb.codecLoop ≠ b) :
    setCodecLoop b s = postLoop none 0 b (withCodecLoop b s) := if_neg h

/-- A change of CODEC_LOOP (R167): the loop takes the setting, LOOP_CHANGED is posted, then the response is made. -/
theorem voiceLoop_change {tag : Nat} {b : Bool} {s t : State} (h : s.vpb.codecLoop ≠ b)
    (ht : pump (voiceLoopEffect tag (some b) s) = t) :
    t.vpb = { s.vpb with codecLoop := b } ∧
      responded { tag := tag, code := 9, status := .done, payload := .none } s t ∧
      (postable s .loopChanged → queued s t .loopChanged none 0 (if b then 1 else 0)) ∧
      onlyChanges [.vpb, .alc, .eventClass, .tmc] s t := by
  subst ht
  have heffect : voiceLoopEffect tag (some b) s =
      answer .voiceLoop tag .done .none (postLoop none 0 b (withCodecLoop b s)) :=
    congrArg (answer .voiceLoop tag .done .none) (setCodecLoop_change h)
  have hchanges := changes.step (pump_changes _) (by decide) (voiceLoopEffect_changes tag (some b) s)
  rw [heffect] at hchanges ⊢
  obtain ⟨hresponded, ⟨-, -, hevents, -⟩, -⟩ :=
    answer_answers (q := .voiceLoop) (tag := tag) (st := .done) (p := .none) (postLoop none 0 b (withCodecLoop b s))
      (by decide)
  have hkept : ResponsesKept s (postLoop none 0 b (withCodecLoop b s)) :=
    .trans (t := withCodecLoop b s) ⟨rfl, rfl, rfl⟩ (postFuel_keepsResponses ..)
  refine ⟨?_, hkept.responded hresponded, fun hpost => ?_, hchanges.onlyParts (by decide)⟩
  · have hvpb : (pump (answer .voiceLoop tag .done .none (postLoop none 0 b (withCodecLoop b s)))).vpb =
        (postLoop none 0 b (withCodecLoop b s)).vpb := answer_onlyChanges _ _ _ _ _ .vpb (by decide)
    exact hvpb.trans ((postLoop_changes ..).keep (.part .vpb) (by decide))
  · unfold queued
    rw [hevents]
    exact post_queues (s := withCodecLoop b s) hpost

/-- Settles O55: VOICE_LOOP by its three settings, the other commands by `exec_keepsCodecLoop`, and the two resets. -/
theorem voiceLoopRequest : Obligations.VoiceLoopRequest := by
  unfold Obligations.VoiceLoopRequest
  refine ⟨fun tag s hup => ?_, fun tag b s hup hsame => ?_, fun tag b s hup hdiff => ?_, fun c s t ht hv hp hw => ?_,
    fun tag s t ht => ?_⟩
  · exact ⟨_, exec_voiceLoop tag none hup, answer_answers s (by decide),
      answer_onlyChanges .voiceLoop tag .outOfRange .none s⟩
  · have heffect : voiceLoopEffect tag (some b) s = answer .voiceLoop tag .done .none s :=
      congrArg (answer .voiceLoop tag .done .none) (setCodecLoop_same hsame)
    refine ⟨_, exec_voiceLoop tag (some b) hup, ?_⟩
    rw [heffect]
    exact ⟨answer_answers s (by decide), answer_onlyChanges .voiceLoop tag .done .none s⟩
  · exact ⟨_, exec_voiceLoop tag (some b) hup, voiceLoop_change hdiff rfl⟩
  · exact exec_keepsCodecLoop ht hv hp hw
  · obtain hpower | ⟨hup, hwarm⟩ := ht
    · exact (powerOnEffect_opensCodecLoop s).of_finish hpower
    · exact (warmEffect_opensCodecLoop tag s).of_finish ((if_pos hup).symm.trans hwarm)

end Sys2Proof.Machine
end


section
/-! The application link (R134, R173 to R176, R180, R181; O7). Laws/ names the operations that write the link's block at
all; here it is said what they do there: they queue event records, join responses and forwarded frames, count, and move the
read cursor. `LinkWork` is that relation, followed through the operations in the order of the model, so that what every command
keeps of the link is one induction over it. An operation whose list of changes leaves out the link is known by that list. -/

namespace Sys2Proof.Machine

-- One lemma at a time: elaborated together they would each take a thread.
set_option Elab.async false

/-- What a command may do on the application link, from the state `a`; those commands apart that change the link's state, end
a transmission or reset the block. -/
inductive LinkWork (a : State) : State → Prop
  | refl : LinkWork a a
  | other {s t : State} : LinkWork a s → t.alc = s.alc → LinkWork a t
  | enqueued {s : State} (e : EventRec) : LinkWork a s → LinkWork a (enqueueEvent e s)
  | responded {s : State} (r : Response) : LinkWork a s → LinkWork a (addResponse r s)
  | forwardedUp {s : State} (f : Forward) : LinkWork a s → s.alc.up = true → LinkWork a (forward f s)
  | counted {s : State} (f : AlcCounters → AlcCounters) : LinkWork a s → LinkWork a (s.cntAlc f)
  | cursorMoved {s : State} (c : TableId × Nat) : LinkWork a s → LinkWork a (s.modAlc (fun x => { x with cursor := c }))
  | chosen {s : State} : LinkWork a s → LinkWork a (pump s)

section
variable {a s t : State}

namespace LinkWork

/-- An operation whose list of changes leaves out the link. -/
theorem via {l : List Piece} (h : LinkWork a s) (c : changes l s t)
    (hl : l.contains (.part .alc) = false := by decide) : LinkWork a t :=
  h.other (c.keep (.part .alc) (by simpa using hl))

/-- An update that does not write the link. -/
theorem quiet (h : LinkWork a s) (ht : t.alc = s.alc := by rfl) : LinkWork a t := h.other ht

/-! ## Choices and folds -/

theorem ite {c : Prop} {_ : Decidable c} (hs : LinkWork a s) (ht : LinkWork a t) : LinkWork a (if c then s else t) := by
  split
  · exact hs
  · exact ht

theorem of_fst {α : Type} {p : State × α} {x : α} (h : LinkWork a p.1) (hp : p = (t, x)) : LinkWork a t := by
  rwa [hp] at h

theorem fst {α : Type} {x : α} (h : LinkWork a s) : LinkWork a (s, x).1 := h

theorem foldl {α : Type} {f : State → α → State} {l : List α} (h : LinkWork a s)
    (hf : ∀ t x, LinkWork a t → LinkWork a (f t x)) : LinkWork a (l.foldl f s) := by
  induction l generalizing s with
  | nil => exact h
  | cons x l ih => exact ih (hf s x h)

theorem foldl_fst {α β : Type} {f : State × β → α → State × β} {l : List α} {p : State × β} (h : LinkWork a p.1)
    (hf : ∀ p x, LinkWork a p.1 → LinkWork a (f p x).1) : LinkWork a (l.foldl f p).1 := by
  induction l generalizing p with
  | nil => exact h
  | cons x l ih => exact ih (hf p x h)

theorem writeFrom {α : Type} {f : Nat → α → State → State} {i : Nat} {l : List α} (h : LinkWork a s)
    (hf : ∀ i x t, LinkWork a t → LinkWork a (f i x t)) : LinkWork a (writeFrom f i l s) := by
  induction l generalizing i s with
  | nil => exact h
  | cons x l ih => exact ih (hf i x s h)

/-! ## Events, checked entries, forwarded frames and responses (R134, R176, R180, R182) -/

theorem postFuel {n : Nat} {kind : EventKind} {u : Option Sub} {a1 a2 : Int} (h : LinkWork a s) :
    LinkWork a (postFuel n kind u a1 a2 s) := by
  induction n generalizing kind u a1 a2 s with
  | zero => exact h
  | succ n ih =>
    unfold Machine.postFuel
    dsimp only
    split
    · exact h.enqueued _
    · split
      · exact h.enqueued _
      · exact h.quiet.enqueued _
      · exact ih (h.quiet.enqueued _)

theorem post {kind : EventKind} {u : Option Sub} {a1 a2 : Int} (h : LinkWork a s) : LinkWork a (post kind u a1 a2 s) :=
  h.postFuel

theorem tmcFail {x : TableId} {i : Nat} (h : LinkWork a s) : LinkWork a (tmcFail x i s) := h.quiet.post

/-- A checked use of an entry whose write leaves the link alone. -/
theorem useEntry {α : Type} {x : TableId} {i : Nat} {e : Checked α} {put : Checked α → State → State} (h : LinkWork a s)
    (hput : ∀ e s, (put e s).alc = s.alc := by exact fun _ _ => rfl) : LinkWork a (useEntry x i e put s) := by
  refine h.ite ?_
  split
  · exact h
  · exact h.other (hput _ s)
  · exact (h.other (hput _ s)).tmcFail

theorem loseForward {f : Forward} (h : LinkWork a s) : LinkWork a (loseForward f s) := h.quiet.ite h.quiet.post

theorem forward {f : Forward} (h : LinkWork a s) : LinkWork a (forward f s) := by
  by_cases hup : s.alc.up = true
  · exact h.forwardedUp f hup
  · rw [Machine.forward, if_neg hup]
    exact h.loseForward

theorem answer {q : Request} {tag : Nat} {st : Status} {p : Payload} (h : LinkWork a s) :
    LinkWork a (answer q tag st p s) := ((h.counted _).ite h).responded _

/-! ## Updates of one block (those of its counters among them) and outputs -/

theorem modFtb {f : Ftb → Ftb} (h : LinkWork a s) : LinkWork a (s.modFtb f) := h.other rfl
theorem modRta {f : Rta → Rta} (h : LinkWork a s) : LinkWork a (s.modRta f) := h.other rfl
theorem modSub {u : Sub} {f : SubRec → SubRec} (h : LinkWork a s) : LinkWork a (s.modSub u f) := h.other rfl
theorem modTab {f : Tables → Tables} (h : LinkWork a s) : LinkWork a (s.modTab f) := h.other rfl
theorem modCtb {f : Ctb → Ctb} (h : LinkWork a s) : LinkWork a (s.modCtb f) := h.other rfl
theorem modMfu {f : Mfu → Mfu} (h : LinkWork a s) : LinkWork a (s.modMfu f) := h.other rfl
theorem modPgm {f : Pgm → Pgm} (h : LinkWork a s) : LinkWork a (s.modPgm f) := h.other rfl
theorem modRec {u : Sub} {f : PgmRec → PgmRec} (h : LinkWork a s) : LinkWork a (s.modRec u f) := h.other rfl
theorem modHxu {f : Hxu → Hxu} (h : LinkWork a s) : LinkWork a (s.modHxu f) := h.other rfl
theorem modBrt {f : Brt → Brt} (h : LinkWork a s) : LinkWork a (s.modBrt f) := h.other rfl
theorem modTxs {f : Txs → Txs} (h : LinkWork a s) : LinkWork a (s.modTxs f) := h.other rfl
theorem modVpb {f : Vpb → Vpb} (h : LinkWork a s) : LinkWork a (s.modVpb f) := h.other rfl
theorem modTmc {f : Tmc → Tmc} (h : LinkWork a s) : LinkWork a (s.modTmc f) := h.other rfl
theorem setCell {i : Nat} {c : Cell} (h : LinkWork a s) : LinkWork a (setCell i c s) := h.other rfl
theorem modCell {i : Nat} {f : Cell → Cell} (h : LinkWork a s) : LinkWork a (modCell i f s) := h.other rfl
theorem sendFl {x : FlFrame} (h : LinkWork a s) : LinkWork a (sendFl x s) := h.other rfl
theorem sendCodec {x : CodecOut} (h : LinkWork a s) : LinkWork a (sendCodec x s) := h.other rfl

theorem cntRta {f : RtaCounters → RtaCounters} (h : LinkWork a s) : LinkWork a (s.cntRta f) := h.other rfl
theorem cntCtb {f : CtbCounters → CtbCounters} (h : LinkWork a s) : LinkWork a (s.cntCtb f) := h.other rfl
theorem cntPgm {f : PgmCounters → PgmCounters} (h : LinkWork a s) : LinkWork a (s.cntPgm f) := h.other rfl
theorem cntHxu {f : HxuCounters → HxuCounters} (h : LinkWork a s) : LinkWork a (s.cntHxu f) := h.other rfl
theorem cntBrt {f : BrtCounters → BrtCounters} (h : LinkWork a s) : LinkWork a (s.cntBrt f) := h.other rfl
theorem cntTxs {f : TxsCounters → TxsCounters} (h : LinkWork a s) : LinkWork a (s.cntTxs f) := h.other rfl

/-! ## GLOBAL and the wake instant (R22, R161) -/

theorem restartOcc (h : LinkWork a s) : LinkWork a (restartOcc s) := h.modVpb

theorem checkGlobal (h : LinkWork a s) : LinkWork a (checkGlobal s) := by
  refine h.ite ?_
  split
  · exact h
  · exact h.modTab.modTmc
  · exact h.modTab.tmcFail.ite h.modTab.tmcFail.restartOcc

theorem drawCurrent (h : LinkWork a s) : LinkWork a (drawCurrent s) := by
  unfold Machine.drawCurrent
  exact h.checkGlobal.modFtb

theorem setWakeInstant (h : LinkWork a s) : LinkWork a (setWakeInstant s) := h.via (setWakeInstant_changes s)

theorem refreshWake (h : LinkWork a s) : LinkWork a (refreshWake s) := h.checkGlobal.setWakeInstant

theorem useGlobal (h : LinkWork a s) : LinkWork a (useGlobal s) := h.checkGlobal.setWakeInstant.ite h.checkGlobal

theorem powerOn (h : LinkWork a s) : LinkWork a (powerOn s) := h.via (powerOn_changes s)

theorem powerOff (h : LinkWork a s) : LinkWork a (powerOff s) := h.via (powerOff_changes s)

theorem powerDownOn (h : LinkWork a s) : LinkWork a (powerDownOn s) := by
  unfold Machine.powerDownOn
  dsimp only
  split
  · exact h.modFtb.powerOff.drawCurrent
  · exact h.modFtb.powerOff

theorem powerDownTest (h : LinkWork a s) : LinkWork a (powerDownTest s) := by
  unfold Machine.powerDownTest
  dsimp only
  split
  · exact h.checkGlobal
  · exact h.checkGlobal.powerDownOn.setWakeInstant.ite h.checkGlobal
  · exact h.checkGlobal.powerOff.setWakeInstant.ite h.checkGlobal

/-! ## The claims list and the paging key (R3, R37, R96) -/

theorem readIdentity {i : Nat} (h : LinkWork a s) : LinkWork a (readIdentity i s) := h.useEntry

theorem readForKey {l : List Nat} (h : LinkWork a s) : LinkWork a (readForKey l s) := by
  induction l generalizing s with
  | nil => exact h
  | cons i l ih => exact h.readIdentity.ite (ih h.readIdentity)

theorem readParam {u : Sub} (h : LinkWork a s) : LinkWork a (readParam u s) := h.useEntry

theorem checkScreen {i : Nat} (h : LinkWork a s) : LinkWork a (checkScreen i s) := h.useEntry

theorem syncWindow {u : Sub} (h : LinkWork a s) : LinkWork a (syncWindow u s) := h.via (syncWindow_changes u s)

theorem setClaims {l : List Claim} (h : LinkWork a s) : LinkWork a (setClaims l s) :=
  h.modRta.syncWindow.syncWindow.refreshWake

theorem removeClaims {p : Claim → Bool} (h : LinkWork a s) : LinkWork a (removeClaims p s) := h.setClaims.ite h

theorem placeClaim {c : Claim} (h : LinkWork a s) : LinkWork a (placeClaim c s) := h.modRta.setClaims

theorem moveWatch {u : Sub} (h : LinkWork a s) : LinkWork a (moveWatch u s) := by
  refine LinkWork.ite ?_ h
  split
  · exact h.ite h.removeClaims.placeClaim
  · exact h

theorem recomputeCycle {u : Sub} (h : LinkWork a s) : LinkWork a (recomputeCycle u s) := by
  unfold Machine.recomputeCycle
  split
  · exact h
  · exact h.ite h.modSub.moveWatch

theorem rekey {u : Sub} (h : LinkWork a s) : LinkWork a (rekey u s) :=
  have hread := h.readForKey (l := identitiesOf u)
  hread.ite hread.modSub.moveWatch

theorem checkIdentity {i : Nat} (h : LinkWork a s) : LinkWork a (checkIdentity i s) :=
  have hread := h.readIdentity (i := i)
  hread.rekey.ite hread

/-! ## The Cell Table (R59 to R72, R89) -/

theorem readServed {u : Sub} {c : Cell} (h : LinkWork a s) : LinkWork a (readServed u c s) := h.readParam.ite h

section
variable {f : Sub → State → State} (hf : ∀ u t, LinkWork a t → LinkWork a (f u t))
include hf

theorem settleParams {old : State} (h : LinkWork a s) : LinkWork a (settleParams f old s) :=
  have ha := (hf .A s h).ite h
  (hf .B _ ha).ite ha

theorem rebuild {i : Nat} {c : Cell} (h : LinkWork a s) : LinkWork a (rebuild f i c s) :=
  have hread := (h.readServed (u := .A) (c := c)).readServed (u := .B) (c := c)
  settleParams hf hread.setCell.modCtb

theorem cellFail {i : Nat} (h : LinkWork a s) : LinkWork a (cellFail f i s) :=
  have hfail := h.tmcFail (x := .cell) (i := i)
  have hcell := (rebuild hf hfail).ite hfail.setCell
  hcell.modHxu.ite hcell

theorem useCellWith {i : Nat} (h : LinkWork a s) : LinkWork a (useCellWith f i s) := by
  refine LinkWork.ite ?_ h
  split
  · exact h
  · exact h.setCell.modTmc
  · exact cellFail hf h

theorem zeroTriggersWith {u : Sub} (h : LinkWork a s) : LinkWork a (zeroTriggersWith f u s) :=
  h.foldl fun _ _ ht => (useCellWith hf ht).modCell.ite (useCellWith hf ht)

theorem paramChangedWith {u : Sub} (h : LinkWork a s) : LinkWork a (paramChangedWith f u s) := by
  unfold Machine.paramChangedWith
  exact ((zeroTriggersWith hf h).via (zeroTriggerList_changes u _)).recomputeCycle.modSub

end

theorem paramChanged {u : Sub} (h : LinkWork a s) : LinkWork a (paramChanged u s) :=
  paramChangedWith (fun _ _ => paramChangedWith fun _ _ ht => ht) h

theorem useCell {i : Nat} (h : LinkWork a s) : LinkWork a (useCell i s) := useCellWith (fun _ _ => paramChanged) h

theorem zeroTriggers {u : Sub} (h : LinkWork a s) : LinkWork a (zeroTriggers u s) :=
  zeroTriggersWith (fun _ _ => paramChanged) h

theorem checkParam {u : Sub} (h : LinkWork a s) : LinkWork a (checkParam u s) :=
  have hread := h.readParam (u := u)
  hread.paramChanged.ite hread

theorem lookup {k : Key} {touch : Bool} (h : LinkWork a s) : LinkWork a (lookup k touch s).1 := by
  have hread : LinkWork a ((waysOf k).foldl (fun s i => Machine.useCell i s) s) := h.foldl fun _ _ => useCell
  unfold Machine.lookup
  dsimp only
  split
  · exact (hread.via (touchEntry_changes ..)).ite hread
  · exact hread

theorem walkWays {base : Nat} {l : List Nat} (h : LinkWork a s) : LinkWork a (walkWays base l s).1 := by
  induction l generalizing s with
  | nil => exact h
  | cons w l ih =>
    unfold Machine.walkWays
    dsimp only
    split
    · exact h.useCell
    · split
      · exact h.useCell
      · exact ih h.useCell

theorem takeWay {k : Key} {i : Nat} {d : Bool} (h : LinkWork a s) : LinkWork a (takeWay k i d s) :=
  h.via (takeWay_changes k i d s)

theorem allocate {k : Key} (h : LinkWork a s) : LinkWork a (allocate k s).1 := by
  unfold Machine.allocate
  split
  · exact h.cntCtb.fst
  · split
    · exact h.takeWay
    · split
      case h_1 hway => exact (h.walkWays.of_fst hway).takeWay
      case h_2 hway => exact h.walkWays.of_fst hway

theorem lookupOrAllocate {k : Key} (h : LinkWork a s) : LinkWork a (lookupOrAllocate k s).1 := by
  unfold Machine.lookupOrAllocate
  split
  case h_1 hhit => exact h.lookup.of_fst hhit
  case h_2 hmiss => exact (h.lookup.of_fst hmiss).allocate

theorem releaseTest {i : Nat} (h : LinkWork a s) : LinkWork a (releaseTest i s) := h.via (releaseTest_changes i s)

theorem unpinServing {u : Sub} {i : Nat} (h : LinkWork a s) : LinkWork a (unpinServing u i s) :=
  h.useCell.modCell.releaseTest

theorem releaseServing {u : Sub} (h : LinkWork a s) : LinkWork a (releaseServing u s) := by
  unfold Machine.releaseServing
  split
  · exact h.unpinServing
  · exact h

theorem pinServing {u : Sub} {i limit : Nat} (h : LinkWork a s) : LinkWork a (pinServing u i limit s) := by
  unfold Machine.pinServing
  split
  · exact h.ite h.modCell.unpinServing
  · exact h.modCell

theorem releaseTarget (h : LinkWork a s) : LinkWork a (releaseTarget s) := by
  unfold Machine.releaseTarget
  split
  · exact h.useCell.modCell.releaseTest
  · exact h

theorem givePenalty {u : Sub} {k : Key} {penalty : Nat} (h : LinkWork a s) :
    LinkWork a (givePenalty u k penalty s) := by
  unfold Machine.givePenalty
  split
  case h_1 hhit => exact (h.lookup.of_fst hhit).modCell
  case h_2 hmiss => exact h.lookup.of_fst hmiss

theorem writeBarred {k : Key} {barred : Bool} (h : LinkWork a s) : LinkWork a (writeBarred k barred s).1 := by
  unfold Machine.writeBarred
  split
  case h_1 hhit => exact (h.lookup.of_fst hhit).modCell.fst
  case h_2 hmiss => exact h.lookup.of_fst hmiss

theorem detachCells {u : Sub} (h : LinkWork a s) : LinkWork a (detachCells u s) :=
  (h.foldl fun _ _ ht => ht.useCell.modCell.ite ht.useCell).foldl fun _ _ => releaseTest

/-! ## The Voice Playout Buffer (R162 to R168) -/

theorem activatePlayout {i : Nat} {u : Sub} (h : LinkWork a s) : LinkWork a (activatePlayout i u s) := by
  unfold Machine.activatePlayout
  dsimp only
  split
  · exact h.useGlobal.modVpb.restartOcc
  · exact h.useGlobal.modVpb

theorem sampleOcc {n : Nat} (h : LinkWork a s) : LinkWork a (sampleOcc n s) := by
  unfold Machine.sampleOcc
  dsimp only
  split
  · exact h.useGlobal.modVpb
  · exact h.useGlobal.modVpb

theorem pull (h : LinkWork a s) : LinkWork a (pull s) := by
  unfold Machine.pull
  split
  · exact h.sendCodec
  · dsimp only
    split
    · exact h.sampleOcc.sendCodec
    · exact h.sampleOcc.sendCodec
    · exact h.sampleOcc.via (playNext_changes ..)

theorem openRadioLoop {announce : Bool} (h : LinkWork a s) : LinkWork a (openRadioLoop announce s) := by
  unfold Machine.openRadioLoop
  split
  · exact h
  · exact h.modVpb.post.ite h.modVpb

theorem openLoopOf {u : Sub} {announce : Bool} (h : LinkWork a s) : LinkWork a (openLoopOf u announce s) :=
  h.openRadioLoop.ite h

theorem closeRadioLoop {u : Sub} (h : LinkWork a s) : LinkWork a (closeRadioLoop u s) := by
  unfold Machine.closeRadioLoop
  split
  · exact h
  · exact h.modVpb.post

/-! ## Bearers and screening (R129 to R137) -/

theorem checkBearer {i : Nat} (h : LinkWork a s) : LinkWork a (checkBearer i s) :=
  have huse := h.useEntry (x := .bearer) (i := i) (e := bearerAt s i) (put := setBearer i)
  (huse.via (endIfSilent_changes ..)).ite huse

theorem changeBearers {u : Sub} {p : BearerState → Bool} {st : BearerState} (h : LinkWork a s) :
    LinkWork a (changeBearers u p st s) :=
  (h.foldl fun _ _ ht => ht.checkBearer.modTab.ite ht.checkBearer).via (endIfSilent_changes ..)

theorem idleBearers {u : Sub} (h : LinkWork a s) : LinkWork a (idleBearers u s) := h.changeBearers

theorem holdBearers {u : Sub} (h : LinkWork a s) : LinkWork a (holdBearers u s) := h.changeBearers

theorem resumeBearers {u : Sub} (h : LinkWork a s) : LinkWork a (resumeBearers u s) := h.changeBearers

theorem screeningCheck {u : Sub} {base span : Nat} (h : LinkWork a s) : LinkWork a (screeningCheck u base span s).1 :=
  h.checkParam.foldl fun _ _ ht => ht.checkScreen

/-! ## Missed claims, insertion and renewal (R38, R39, R46, R51, R96, R110) -/

theorem reselectFail {u : Sub} {cause : Nat} (h : LinkWork a s) : LinkWork a (reselectFail u cause s) := by
  unfold Machine.reselectFail
  split
  · exact h.modSub
  · exact h.modSub.checkParam.givePenalty.post.modPgm

theorem acquisitionSpent {u : Sub} (h : LinkWork a s) : LinkWork a (acquisitionSpent u s) := by
  unfold Machine.acquisitionSpent
  split
  · exact h.modSub
  · exact h.reselectFail.ite h
  · exact h

theorem missedEffect {c : Claim} (h : LinkWork a s) : LinkWork a (missedEffect c s) := by
  unfold Machine.missedEffect
  split
  case h_1 => exact h.checkParam.modSub.via (countWatchMissed_changes ..)
  case h_6 => exact h.acquisitionSpent
  case h_7 => exact h
  all_goals exact h.modRta

theorem mergeClaim {c : Claim} (h : LinkWork a s) : LinkWork a (mergeClaim c s) :=
  ((h.via (mapClaims_changes ..)).via (appendItems_changes ..)).setClaims

theorem displaceLowest {c : Claim} (h : LinkWork a s) : LinkWork a (displaceLowest c s) :=
  ((h.ite h.removeClaims.placeClaim).via (countDisplaced_changes _)).missedEffect.via (deferRenewal_changes ..)

theorem checkPriorities (h : LinkWork a s) : LinkWork a (checkPriorities s) := h.checkParam.checkParam

theorem displaceInsert {c : Claim} (h : LinkWork a s) : LinkWork a (displaceInsert c s) :=
  have hread := h.checkPriorities
  hread.mergeClaim.ite (hread.placeClaim.ite hread.displaceLowest)

theorem insertClaim {c : Claim} (h : LinkWork a s) : LinkWork a (insertClaim c s) :=
  (h.modRta.missedEffect.via (deferRenewal_changes ..)).ite (h.mergeClaim.ite (h.placeClaim.ite h.displaceInsert))

theorem insertWatch {u : Sub} (h : LinkWork a s) : LinkWork a (insertWatch u s) := by
  unfold Machine.insertWatch
  dsimp only
  split
  · exact (h.modRec.ite h.modRec.checkPriorities).insertClaim
  · exact h.modRec.ite h.modRec.checkPriorities

theorem renewWatch {u : Sub} (h : LinkWork a s) : LinkWork a (renewWatch u s) := h.insertWatch.ite h

theorem insertGap {u : Sub} {k : Nat} (h : LinkWork a s) : LinkWork a (insertGap u k s) := h.modRec.insertClaim

theorem startGap {u : Sub} (h : LinkWork a s) : LinkWork a (startGap u s) := h.ite h.checkParam.insertGap

theorem startWeakGap {u : Sub} (h : LinkWork a s) : LinkWork a (startWeakGap u s) := h.ite h.insertGap

theorem renewGap {u : Sub} (h : LinkWork a s) : LinkWork a (renewGap u s) := by
  unfold Machine.renewGap
  split
  · exact h.startGap
  · exact h.startWeakGap.ite h
  · exact h

theorem setChain {u : Sub} {c : Option Chain} (h : LinkWork a s) : LinkWork a (setChain u c s) := h.modRec

theorem startSearch {u : Sub} (h : LinkWork a s) : LinkWork a (startSearch u s) := by
  refine h.setChain.ite ?_
  split
  · exact h.setChain
  · exact h.removeClaims.setChain.setChain.insertClaim.ite h.removeClaims.setChain.setChain
  · exact h.setChain.insertClaim

theorem startSearchIfDue {u : Sub} (h : LinkWork a s) : LinkWork a (startSearchIfDue u s) := h.startSearch.ite h

theorem renewSearch (h : LinkWork a s) : LinkWork a (renewSearch s) := by
  unfold Machine.renewSearch
  dsimp only
  split
  · exact h.modPgm.setChain.setChain.insertClaim
  · exact h.modPgm.setChain.insertClaim
  · exact h.modPgm.setChain.insertClaim
  · exact h.modPgm

theorem leaveSearch {u : Sub} (h : LinkWork a s) : LinkWork a (leaveSearch u s) :=
  have hown := h.setChain.removeClaims
  have hdue := hown.ite hown.modPgm
  hdue.ite hdue.removeClaims

theorem renewClaim {c : Claim} (h : LinkWork a s) : LinkWork a (renewClaim c s) := by
  unfold Machine.renewClaim
  split
  · exact h.renewWatch
  · exact h.renewGap
  · exact h.renewSearch
  · exact h.startSearchIfDue
  · exact h

/-! ## Camping, reselection and pages (R10, R97 to R110) -/

theorem areaTest {u : Sub} (h : LinkWork a s) : LinkWork a (areaTest u s) := by
  unfold Machine.areaTest
  dsimp only
  split
  · exact h.checkParam
  · exact h.checkParam.modRec.ite (h.checkParam.ite h.checkParam.modRec.post)

theorem setServing {u : Sub} {k : Key} {area tCell g : Nat} (h : LinkWork a s) :
    LinkWork a (setServing u k area tCell g s) := h.checkParam.modSub.areaTest

theorem takeServingCell {u : Sub} {k : Key} (h : LinkWork a s) : LinkWork a (takeServingCell u k s).1 := by
  unfold Machine.takeServingCell
  split
  case h_1 hnone => exact h.lookupOrAllocate.of_fst hnone
  case h_2 hsome => exact (h.lookupOrAllocate.of_fst hsome).modCell.checkParam.pinServing

theorem camp {u : Sub} {r : AcqResult} (h : LinkWork a s) : LinkWork a (camp u r s).1 := by
  unfold Machine.camp
  split
  case h_1 hnone => exact h.takeServingCell.of_fst hnone
  case h_2 hsome => exact (h.takeServingCell.of_fst hsome).setServing.modSub.leaveSearch.post.insertWatch

theorem markBarred {k : Key} (h : LinkWork a s) : LinkWork a (markBarred k s) := h.writeBarred

theorem initialFail {u : Sub} (h : LinkWork a s) : LinkWork a (initialFail u s) := h.modSub.startSearchIfDue

theorem initialResult {u : Sub} {r : AcqResult} (h : LinkWork a s) : LinkWork a (initialResult u r s) := by
  refine LinkWork.ite (h.markBarred.initialFail.ite ?_) h.initialFail
  split
  case h_1 hcamped => exact h.camp.of_fst hcamped
  case h_2 hfailed => exact (h.camp.of_fst hfailed).initialFail

theorem takeOffer {u : Sub} {k : Key} (h : LinkWork a s) : LinkWork a (takeOffer u k s) :=
  h.modSub.insertClaim.modPgm.ite h

theorem followRhythm {u : Sub} {old : Option (Nat × Nat)} (h : LinkWork a s) : LinkWork a (followRhythm u old s) :=
  h.ite h.moveWatch

theorem reselectFound {u : Sub} {r : AcqResult} (h : LinkWork a s) : LinkWork a (reselectFound u r s) := by
  unfold Machine.reselectFound
  split
  case h_1 hnone => exact (h.takeServingCell.of_fst hnone).reselectFail
  case h_2 hsome =>
    exact (h.takeServingCell.of_fst hsome).setServing.modSub.zeroTriggers.post.modPgm.followRhythm

theorem reselectResult {u : Sub} {r : AcqResult} (h : LinkWork a s) : LinkWork a (reselectResult u r s) :=
  (h.markBarred.reselectFail.ite h.reselectFound).ite h.lookup.reselectFail

theorem searchOffer {u : Sub} {r : AcqResult} (h : LinkWork a s) : LinkWork a (searchOffer u r s) :=
  (h.markBarred.ite h.camp).ite h

theorem discardResult {r : AcqResult} (h : LinkWork a s) : LinkWork a (discardResult r s) := by
  unfold Machine.discardResult
  exact (h.markBarred.ite h).cntPgm

theorem matchItem {u : Sub} {k : IdKind} {i : PageItem} (h : LinkWork a s) : LinkWork a (matchItem u k i s).1 :=
  h.foldl fun _ _ => checkIdentity

theorem pageItem {u : Sub} {i : PageItem} {x : State × PageTally} (h : LinkWork a x.1) :
    LinkWork a (pageItem u i x).1 := by
  obtain ⟨s, tally⟩ := x
  unfold Machine.pageItem
  dsimp only
  split
  · exact h.cntPgm.fst
  · split
    case h_1 hmatch =>
      have hread := h.matchItem.of_fst hmatch
      split
      · exact hread.post
      · exact hread.cntPgm.fst
    case h_2 hmatch =>
      have hread := h.matchItem.of_fst hmatch
      split
      case h_1 hscreen =>
        split
        · exact (hread.screeningCheck.of_fst hscreen).post
        · exact hread.screeningCheck.of_fst hscreen
      case h_2 hscreen =>
        have hscreened := (hread.screeningCheck.of_fst hscreen).post
          (kind := .screened) (u := some u) (a1 := i.base) (a2 := i.ref)
        split
        · exact hscreened
        · exact hscreened

theorem insertReply {u : Sub} {start : Nat} {items : List ReplyItem} (h : LinkWork a s) :
    LinkWork a (insertReply u start items s) := h.insertClaim.ite (h.insertClaim.via (appendItems_changes ..))

theorem placePageClaims {u : Sub} {fn : Nat} {x : PageTally} (h : LinkWork a s) :
    LinkWork a (placePageClaims u fn x s) :=
  have hdelivery := h.ite h.insertClaim
  hdelivery.ite hdelivery.removeClaims.insertReply.modRec.syncWindow

theorem takePage {u : Sub} {fn : Nat} {l : List PageItem} (h : LinkWork a s) : LinkWork a (takePage u fn l s) :=
  (foldl_fst h.modRec.cntPgm.fst fun _ _ => pageItem).placePageClaims

theorem watchGranted {u : Sub} {fn : Nat} (h : LinkWork a s) : LinkWork a (watchGranted u fn s) :=
  h.modRec.insertReply.ite h.modRec

/-! ## Texts (R147 to R157) -/

theorem offerStoreReady {u : Sub} (h : LinkWork a s) : LinkWork a (offerStoreReady u s) :=
  h.via (offerStoreReady_changes u s)

theorem offerAnswer {p : TextPath} {u : Sub} {g : RawSegment} {x : TextAnswer} (h : LinkWork a s) :
    LinkWork a (offerAnswer p u g x s) := h.via (offerAnswer_changes p u g x s)

theorem completeIfWhole {i : Nat} {g : Group} (h : LinkWork a s) : LinkWork a (completeIfWhole i g s) :=
  LinkWork.ite (post (modTxs (h.via (makeReady_changes ..)))) h

theorem refuseFull {p : TextPath} {u : Sub} {g : RawSegment} (h : LinkWork a s) : LinkWork a (refuseFull p u g s) :=
  have hnotice := h.modTxs.via (setNotice_changes u .fullSignalled _)
  (h.modTxs.ite hnotice.post).offerAnswer

theorem expireGroup {i : Nat} {g : Group} (h : LinkWork a s) : LinkWork a (expireGroup i g s) :=
  post (cntTxs (h.via (makeReady_changes ..)))

theorem joinGroup {i : Nat} {u : Sub} {g : RawSegment} {held : Option Group} (h : LinkWork a s) :
    LinkWork a (joinGroup i u g held s) := by
  unfold Machine.joinGroup
  split
  · exact h.modTxs.completeIfWhole
  · exact h.checkParam.modTxs.completeIfWhole

theorem examinePermitted {p : TextPath} {u : Sub} {g : RawSegment} (h : LinkWork a s) :
    LinkWork a (examinePermitted p u g s) := by
  have hfill : LinkWork a (fillSlot u g s) := h.via (fillSlot_changes u g s)
  unfold Machine.examinePermitted
  split
  · refine h.modTxs.ite (h.modTxs.offerAnswer.ite ?_)
    split
    · exact h.modTxs
    · exact h.refuseFull.ite hfill.joinGroup.offerAnswer
  · split
    · exact h.refuseFull
    · exact h.refuseFull.ite hfill.joinGroup.offerAnswer

theorem takeSegment {p : TextPath} {u : Sub} {g : RawSegment} (h : LinkWork a s) :
    LinkWork a (takeSegment p u g s) := by
  refine LinkWork.ite ?_ h.modTxs
  split
  case h_1 hscreen => exact (h.screeningCheck.of_fst hscreen).modTxs.offerAnswer
  case h_2 hscreen => exact (h.screeningCheck.of_fst hscreen).examinePermitted

/-! ## Changes of subscription state (R10 to R17, R36) -/

theorem setConnected {u : Sub} {c : Bool} (h : LinkWork a s) : LinkWork a (setConnected u c s) := h.modRta.refreshWake

theorem setHoExec {u : Option Sub} (h : LinkWork a s) : LinkWork a (setHoExec u s) := h.modRta.refreshWake

theorem setState {u : Sub} {x : SubState} (h : LinkWork a s) : LinkWork a (setState u x s) := h.modSub

theorem setTiming {u : Sub} {x : Option Nat} (h : LinkWork a s) : LinkWork a (setTiming u x s) := h.modHxu

theorem dropWatch {u : Sub} (h : LinkWork a s) : LinkWork a (dropWatch u s) := h.modRec.removeClaims

theorem abandonReselection {u : Sub} (h : LinkWork a s) : LinkWork a (abandonReselection u s) :=
  h.modSub.removeClaims.ite h

theorem linkEnd {u : Sub} (h : LinkWork a s) : LinkWork a (linkEnd u s) :=
  (h.setConnected.idleBearers.via (flushQueue_changes ..)).openLoopOf.modSub.setTiming

theorem campFromLink {u : Sub} (h : LinkWork a s) : LinkWork a (campFromLink u s) :=
  h.linkEnd.setState.zeroTriggers.insertWatch

theorem enterConnecting {u : Sub} (h : LinkWork a s) : LinkWork a (enterConnecting u s) :=
  h.setState.abandonReselection.dropWatch.checkParam.modSub.setConnected.zeroTriggers.offerStoreReady

theorem joinQueue {u : Sub} {f : UplinkFrame} (h : LinkWork a s) : LinkWork a (joinQueue u f s).1 :=
  h.via (joinQueue_changes u f s)

theorem upDiscard (h : LinkWork a s) : LinkWork a (upDiscard s) := h.cntBrt

theorem linkRequest {u : Sub} {body : Octets} (h : LinkWork a s) : LinkWork a (linkRequest u body s) := by
  unfold Machine.linkRequest
  dsimp only
  split
  · exact h.joinQueue
  · exact h.joinQueue
  · exact h.joinQueue
  · exact h.upDiscard
  · exact h.post.ite h.upDiscard
  · refine h.post.ite ?_
    split
    case h_1 hjoined => exact (h.joinQueue.of_fst hjoined).enterConnecting
    case h_2 hfull => exact h.joinQueue.of_fst hfull

theorem linkGrant {u : Sub} (h : LinkWork a s) : LinkWork a (linkGrant u s) := h.modSub.startGap.ite h

theorem connectTimeout {u : Sub} (h : LinkWork a s) : LinkWork a (connectTimeout u s) := h.campFromLink.post

theorem guardStep {u : Sub} (h : LinkWork a s) : LinkWork a (guardStep u s) := by
  unfold Machine.guardStep
  split
  · exact h.connectTimeout.ite h.modSub
  · exact h

theorem enterSearch {u : Sub} (h : LinkWork a s) : LinkWork a (enterSearch u s) :=
  h.setState.removeClaims.releaseServing.modSub.modRec.startSearch

theorem lossOfService {u : Sub} (h : LinkWork a s) : LinkWork a (lossOfService u s) := by
  unfold Machine.lossOfService
  dsimp only
  split
  · exact h.abandonReselection.post.enterSearch
  · exact h.linkEnd.post.enterSearch
  · exact h.linkEnd.post.enterSearch
  · exact h

theorem endVoice {u : Sub} (h : LinkWork a s) : LinkWork a (endVoice u s) :=
  h.idleBearers.restartOcc.ite h.idleBearers

theorem detach {u : Sub} (h : LinkWork a s) : LinkWork a (detach u s) :=
  have hlink := (h.setState.removeClaims.setConnected.detachCells.endVoice.via (flushQueue_changes ..)).openLoopOf
  have hrecord := (hlink.via (setNotice_changes ..)).modSub.leaveSearch.modRec.setTiming.via (discardOpen_changes ..)
  (hrecord.via (watermarkTest_changes ..)).ite hrecord

/-! ## Handover (R113 to R124) -/

theorem setFrozen {x : Bool} (h : LinkWork a s) : LinkWork a (setFrozen x s) := h.modCtb

theorem acceptOrder {u : Sub} {target : Key} {guard : Nat} (h : LinkWork a s) :
    LinkWork a (acceptOrder u target guard s) := by
  unfold Machine.acceptOrder
  refine LinkWork.holdBearers (setHoExec (setState (modHxu (modHxu (setFrozen ?_)))))
  split
  · exact h.lookupOrAllocate.modCell
  · exact h.lookupOrAllocate

theorem ignoreOrder {u : Option Sub} {target : Key} {guard cause : Nat} (h : LinkWork a s) :
    LinkWork a (ignoreOrder u target guard cause s) := (h.post.ite h.post).cntHxu.forward

theorem takeOrder {u : Option Sub} {target : Key} {guard : Nat} (h : LinkWork a s) :
    LinkWork a (takeOrder u target guard s) := by
  unfold Machine.takeOrder
  split
  · exact h.ignoreOrder
  · exact h.acceptOrder
  · exact h

theorem releasePins (h : LinkWork a s) : LinkWork a (releasePins s) := h.releaseTarget.setFrozen

theorem clearRun (h : LinkWork a s) : LinkWork a (clearRun s) := h.modHxu.modPgm

theorem writeTrigger {u : Sub} {x : TrigRec} (h : LinkWork a s) : LinkWork a (writeTrigger u s x) :=
  h.useCell.modCell.ite h.useCell

theorem writeTriggers {r : HoRun} (h : LinkWork a s) : LinkWork a (writeTriggers r s) := by
  refine h.foldl fun u k hu => ?_
  split
  · exact hu.writeTrigger
  · exact hu

theorem applyLoop {r : HoRun} (h : LinkWork a s) : LinkWork a (applyLoop r s) := h.closeRadioLoop.ite h.openRadioLoop

theorem backToConnected {u : Sub} (h : LinkWork a s) : LinkWork a (backToConnected u s) :=
  h.setHoExec.setState.startGap.resumeBearers

theorem placeHead {u : Sub} {f : UplinkFrame} (h : LinkWork a s) : LinkWork a (placeHead u f s) :=
  h.via (placeHead_changes u f s)

theorem restore {r : HoRun} {cause : Nat} (h : LinkWork a s) : LinkWork a (restore r cause s) := by
  unfold Machine.restore
  exact h.releasePins.writeTriggers.checkParam.givePenalty.applyLoop.placeHead.clearRun.backToConnected.post.cntHxu

theorem commitRecord {r : HoRun} (h : LinkWork a s) : LinkWork a (commitRecord r s) := by
  unfold Machine.commitRecord
  split
  · exact h.setServing
  · exact h.modSub

theorem commitOn {r : HoRun} {i timing : Nat} (h : LinkWork a s) : LinkWork a (commitOn r i timing s) := by
  unfold Machine.commitOn
  refine LinkWork.cntHxu (post (setTiming (zeroTriggers (placeHead ?_))))
  exact h.checkParam.pinServing.releasePins.commitRecord.clearRun.backToConnected

theorem commit {r : HoRun} {timing : Nat} (h : LinkWork a s) : LinkWork a (commit r timing s) := by
  unfold Machine.commit
  split
  case h_1 hmiss => exact (h.modHxu.lookup.of_fst hmiss).restore
  case h_2 hhit => exact (h.modHxu.lookup.of_fst hhit).restore.ite (h.modHxu.lookup.of_fst hhit).commitOn

theorem abandon {r : HoRun} (h : LinkWork a s) : LinkWork a (abandon r s) := by
  unfold Machine.abandon
  exact h.releasePins.writeTriggers.clearRun.setHoExec.campFromLink.cntHxu

theorem hoGuardStep (h : LinkWork a s) : LinkWork a (hoGuardStep s) := by
  unfold Machine.hoGuardStep
  split
  · exact h
  · exact h.restore.ite h.modHxu

theorem takeNotice (h : LinkWork a s) : LinkWork a (takeNotice s) := by
  unfold Machine.takeNotice
  dsimp only
  split
  · exact h.modHxu.restore
  · exact h.modHxu

theorem countUnused (h : LinkWork a s) : LinkWork a (countUnused s) := h.cntHxu

theorem takeSync {u : Sub} {k : Key} {x : SyncResult} {timing : Nat} (h : LinkWork a s) :
    LinkWork a (takeSync u k x timing s) := by
  unfold Machine.takeSync
  split
  · refine LinkWork.ite ?_ h.countUnused
    split
    · exact h.commit
    · exact h.restore
  · exact h.setTiming.ite h.countUnused
  · exact h.setTiming.ite h.countUnused
  · exact h.countUnused

theorem linkRelease {u : Sub} (h : LinkWork a s) : LinkWork a (linkRelease u s) := by
  unfold Machine.linkRelease
  split
  · exact h.campFromLink
  · exact h.campFromLink
  · exact h.abandon
  · exact h

/-! ## Reports (R76 to R89) -/

theorem reportEntry {k : Key} {d : Bool} (h : LinkWork a s) : LinkWork a (reportEntry k d s).1 := by
  unfold Machine.reportEntry
  split
  case h_1 hhit => exact h.lookup.of_fst hhit
  case h_2 hmiss =>
    split
    · exact (h.lookup.of_fst hmiss).allocate
    · exact h.lookup.of_fst hmiss

theorem reportCell {u : Sub} {p : Param} {x : State × List (Nat × Key)} {c : RawCell} (h : LinkWork a x.1) :
    LinkWork a (reportCell u p x c).1 := by
  unfold Machine.reportCell
  dsimp only
  split
  case h_1 hnone => exact (h.reportEntry.of_fst hnone).modMfu.fst
  case h_2 hsome => exact (h.reportEntry.of_fst hsome).modCell.fst

theorem sweepOne {u : Sub} {limit : Nat} {seen : List (Nat × Key)} {x : State × Bool} {i : Nat} (h : LinkWork a x.1) :
    LinkWork a (sweepOne u limit seen x i).1 := by
  unfold Machine.sweepOne
  dsimp only
  split
  · exact h.useCell
  · split
    · exact h.useCell.modCell.fst
    · split
      · exact h.useCell.modCell.fst
      · split
        · exact h.useCell.modCell.releaseTest.fst
        · exact h.useCell.modCell.fst

theorem sweep {u : Sub} {limit : Nat} {seen : List (Nat × Key)} (h : LinkWork a s) :
    LinkWork a (sweep u limit seen s).1 := foldl_fst (p := (s, false)) h fun _ _ => sweepOne

theorem weakStep {u : Sub} {p : Param} (h : LinkWork a s) : LinkWork a (weakStep u p s) := by
  refine LinkWork.ite ?_ h
  split
  · exact h
  · exact h.ite (h.modSub.startWeakGap.ite h.modSub)

theorem triggerOne {u : Sub} {c : Bool} {holds : Cell → Bool} {seen : List (Nat × Key)} {i : Nat} (h : LinkWork a s) :
    LinkWork a (triggerOne u c holds seen s i) :=
  have huse := h.useCell (i := i)
  (huse.modCell.ite ((huse.ite huse.modCell).ite (huse.modCell.ite huse.modCell))).ite huse

theorem idleTrigger {u : Sub} {p : Param} {i : Nat} {seen : List (Nat × Key)} (h : LinkWork a s) :
    LinkWork a (idleTrigger u p i seen s) := by
  unfold Machine.idleTrigger
  dsimp only
  split
  · exact h.foldl fun _ _ => triggerOne
  · exact (h.foldl fun _ _ => triggerOne).modMfu.takeOffer

theorem connTrigger {u : Sub} {p : Param} {i : Nat} {seen : List (Nat × Key)} (h : LinkWork a s) :
    LinkWork a (connTrigger u p i seen s) := by
  have hcounts := h.foldl (l := allEntries) (f := Machine.triggerOne u true
    (connHolds u (rank (cellAt s i) + 4 * (p.hoMargin : Int))) seen) fun _ _ => triggerOne
  unfold Machine.connTrigger
  dsimp only
  split
  · split
    case h_1 hjoined => exact (hcounts.modMfu.joinQueue.of_fst hjoined).via (markReported_changes ..)
    case h_2 hfull => exact (hcounts.modMfu.joinQueue.of_fst hfull).modMfu
  · exact hcounts

theorem triggerStep {u : Sub} {p : Param} {seen : List (Nat × Key)} (h : LinkWork a s) :
    LinkWork a (triggerStep u p seen s) := by
  unfold Machine.triggerStep
  split
  · exact h
  · split
    · exact h.useCell.ite h.useCell.idleTrigger
    · exact h.useCell.ite h.useCell.connTrigger
    · exact h

theorem penaltyStep {u : Sub} (h : LinkWork a s) : LinkWork a (penaltyStep u s) :=
  h.foldl fun _ _ ht => (ht.useCell.modCell.ite ht.useCell).ite ht

theorem reportAll {u : Sub} {p : Param} {l : List RawCell} (h : LinkWork a s) :
    LinkWork a (l.foldl (Machine.reportCell u p) (s, [])).1 := foldl_fst (p := (s, [])) h fun _ _ => reportCell

theorem takeReport {u : Sub} {cells : List RawCell} (h : LinkWork a s) : LinkWork a (takeReport u cells s) := by
  unfold Machine.takeReport
  dsimp only
  refine LinkWork.penaltyStep (triggerStep (weakStep (LinkWork.ite ?_ ?_)))
  · exact h.checkParam.modMfu.reportAll.sweep.lossOfService
  · exact h.checkParam.modMfu.reportAll.sweep

/-! ## Frame starts and marks (R19 to R52) -/

theorem missClaim {c : Claim} (h : LinkWork a s) : LinkWork a (missClaim c s) :=
  h.removeClaims.missedEffect.renewClaim.ite h

theorem loseFrame {w : Cand} (h : LinkWork a s) : LinkWork a (loseFrame s w) := by
  unfold Machine.loseFrame
  split
  · exact h.modRta.ite h
  · exact h.missClaim.ite (h.modRta.ite h)

theorem tuneAway {u : Sub} {n : Nat} (h : LinkWork a s) : LinkWork a (tuneAway u n s) := h.post.cntRta

theorem grantedClaim {g : Grant} {c : Claim} (h : LinkWork a s) : LinkWork a (grantedClaim g c s) := by
  have hmap : LinkWork a (mapClaims (bySerial c.serial) (fun c => { c with granted := min (c.granted + 1) c.length })
      s) := h.via (mapClaims_changes ..)
  unfold Machine.grantedClaim
  dsimp only
  split
  case h_1 =>
    split
    · exact (hmap.modSub.removeClaims.tuneAway).watchGranted.renewWatch
    · exact hmap.modSub.removeClaims.watchGranted.renewWatch
  case h_2 => exact hmap.removeClaims.via (sendReply_changes ..)
  case h_3 => exact hmap.removeClaims.renewClaim
  case h_4 => exact hmap.removeClaims.ite hmap
  case h_5 => exact hmap.removeClaims.renewClaim.ite hmap
  case h_6 => exact hmap

theorem grantSent {g : Grant} (h : LinkWork a s) : LinkWork a (grantSent g s) := by
  unfold Machine.grantSent
  dsimp only
  split
  · split
    · exact (h.sendFl.via (drainQueue_changes ..)).via (sendVoice_changes ..)
    · exact h.sendFl
  · split
    · exact h.sendFl.grantedClaim
    · exact h.sendFl

theorem passGrant {g : Grant} (h : LinkWork a s) : LinkWork a (passGrant g s) := by
  unfold Machine.passGrant
  split
  · exact h.grantSent
  · exact h.modFtb
  · exact h.powerOn.modFtb

theorem grantDecision (h : LinkWork a s) : LinkWork a (grantDecision s) := by
  unfold Machine.grantDecision
  split
  · exact h.via (voiceDecision_changes ..)
  · exact ((h.modRta.foldl fun _ _ => loseFrame).via (voiceDecision_changes ..)).passGrant

theorem spendBudget {u : Sub} (h : LinkWork a s) : LinkWork a (spendBudget u s) :=
  h.modRta.acquisitionSpent.startSearchIfDue.ite h

theorem duePart {old : State} {u : Sub} (h : LinkWork a s) : LinkWork a (duePart old u s) :=
  have hwatch := h.modRec.renewWatch.ite h
  have hgap := hwatch.modRec.renewGap.ite hwatch
  hgap.startSearchIfDue.ite hgap

theorem dueRenewals {old : State} (h : LinkWork a s) : LinkWork a (dueRenewals old s) :=
  h.duePart.duePart.renewSearch.ite h.duePart.duePart

theorem offerAtFrameStart {old : State} {u : Sub} (h : LinkWork a s) : LinkWork a (offerAtFrameStart old u s) :=
  h.ite h.offerStoreReady

theorem beforeDecision (h : LinkWork a s) :
    LinkWork a (dropEmptyReplies (Machine.spendBudget .B (Machine.spendBudget .A (resort (beginReacquires s))))) :=
  ((h.via (beginReacquires_changes s)).via (resort_changes _)).spendBudget.spendBudget.via (dropEmptyReplies_changes _)

theorem expiryStep (h : LinkWork a s) : LinkWork a (expiryStep s) := by
  refine LinkWork.ite (h.foldl fun t i ht => ?_) h
  unfold expiryStepOne
  split
  · split
    · exact ht.expireGroup.ite (ht.via (setGroup_changes ..))
    · exact ht
  · exact ht

theorem frameStart (h : LinkWork a s) : LinkWork a (frameStart s) := by
  unfold Machine.frameStart
  refine LinkWork.refreshWake (hoGuardStep (guardStep (guardStep (expiryStep ?_))))
  exact h.checkParam.checkParam.beforeDecision.grantDecision.dueRenewals.powerDownTest.offerAtFrameStart.offerAtFrameStart

theorem failedGrant {g : Grant} (h : LinkWork a s) : LinkWork a (failedGrant g s) := by
  unfold Machine.failedGrant
  split
  · exact h.modRta.ite h
  · split
    · exact h.missClaim
    · exact h

theorem closeFrame (h : LinkWork a s) : LinkWork a (closeFrame s) := by
  unfold Machine.closeFrame
  split
  · exact (h.sendFl.post.modFtb.via (dropBound_changes ..)).failedGrant.modFtb
  · exact h

theorem nextSleepFrame (h : LinkWork a s) : LinkWork a (nextSleepFrame s) := h.modFtb.drawCurrent.frameStart

theorem boundary (h : LinkWork a s) : LinkWork a (boundary s) := h.closeFrame.nextSleepFrame

theorem watchdogExpiry (h : LinkWork a s) : LinkWork a (watchdogExpiry s) := by
  unfold Machine.watchdogExpiry
  dsimp only
  split
  · exact h.modFtb.powerOff.post.nextSleepFrame
  · exact h.modFtb.powerOff.post.refreshWake

theorem countStray (h : LinkWork a s) : LinkWork a (countStray s) := h.other rfl

theorem takeReady (h : LinkWork a s) : LinkWork a (takeReady s) := by
  unfold Machine.takeReady
  split
  · dsimp only
    split
    · exact h.modFtb.grantSent
    · exact h.modFtb
  · exact h.countStray

theorem jumpOne {old carried : Nat} {c : Claim} (h : LinkWork a s) : LinkWork a (jumpOne old carried s c) :=
  have hlost : LinkWork a (loseJumped old carried c s) := h.modRta.ite h
  (LinkWork.ite (h.via (mapClaims_changes ..)) h).ite ((h.modRta.missClaim.ite hlost).ite h)

theorem jumpClaims {old carried : Nat} (h : LinkWork a s) : LinkWork a (jumpClaims old carried s) :=
  h.foldl fun _ _ => jumpOne

theorem markFrame {first : Bool} {expected carried : Nat} (h : LinkWork a s) :
    LinkWork a (markFrame first expected carried s) :=
  have hcounted := h.modFtb.modFtb.post.ite h.modFtb.modFtb
  (h.modFtb.ite (hcounted.jumpClaims.ite hcounted)).frameStart

theorem takeMark {carried : Nat} (h : LinkWork a s) : LinkWork a (takeMark carried s) := by
  unfold Machine.takeMark
  split
  · exact h.modFtb.ite h.modFtb.markFrame
  · exact h.countStray

theorem runWatchdog {k : Nat} (h : LinkWork a s) : LinkWork a (runWatchdog k s) := by
  unfold Machine.runWatchdog
  split
  · exact h
  · exact h.watchdogExpiry.ite h.modFtb

theorem frameElapses {len : Nat} (h : LinkWork a s) : LinkWork a (frameElapses len s) :=
  (h.powerOn.ite h).modFtb.runWatchdog.boundary

/-! ## The effects of commands -/

theorem markWatchdogEffect (h : LinkWork a s) : LinkWork a (markWatchdogEffect s) := h.watchdogExpiry.ite h

theorem warmUpFailureEffect (h : LinkWork a s) : LinkWork a (warmUpFailureEffect s) := by
  unfold Machine.warmUpFailureEffect
  split
  · exact h.frameElapses.ite h
  · exact h

theorem hoGuardExpiryEffect (h : LinkWork a s) : LinkWork a (hoGuardExpiryEffect s) := by
  unfold Machine.hoGuardExpiryEffect
  split
  · exact h.restore.ite h
  · exact h

theorem reacquireSpentEffect {u : Sub} (h : LinkWork a s) : LinkWork a (reacquireSpentEffect u s) :=
  h.spendBudget.refreshWake.ite h

theorem pageEffect {u : Option Sub} {fn : Nat} {l : List PageItem} (h : LinkWork a s) :
    LinkWork a (pageEffect u fn l s) := by
  unfold Machine.pageEffect
  dsimp only
  split
  · exact h.modPgm
  · exact h.takePage.ite h.modPgm

theorem summaryFor {u : Sub} {k : Key} {x : Summary} (h : LinkWork a s) : LinkWork a (summaryFor u k x s) :=
  h.checkParam.setServing.followRhythm.ite h

theorem summaryEffect {k : Key} {tCell g area : Nat} {barred : Bool} (h : LinkWork a s) :
    LinkWork a (summaryEffect k tCell g area barred s) := by
  refine LinkWork.ite ?_ h.modPgm
  dsimp only
  refine LinkWork.ite ?_ h.writeBarred.modPgm
  exact h.writeBarred.summaryFor.summaryFor.modPgm.ite h.writeBarred.summaryFor.summaryFor

theorem reportEffect {u : Option Sub} {cells : List RawCell} (h : LinkWork a s) :
    LinkWork a (reportEffect u cells s) := by
  unfold Machine.reportEffect
  dsimp only
  split
  · exact h.modMfu
  · exact h.modMfu.ite h.takeReport

theorem reacquireResult {u : Sub} {r : AcqResult} (h : LinkWork a s) : LinkWork a (reacquireResult u r s) := by
  refine LinkWork.ite ?_ h.discardResult
  split
  · exact h.removeClaims.initialResult
  · exact h.removeClaims.reselectResult.ite h.discardResult
  · exact h.discardResult

theorem acqEffect {r : AcqResult} (h : LinkWork a s) : LinkWork a (acqEffect r s) := by
  refine LinkWork.ite ?_ h.modPgm
  split
  · exact h.reacquireResult
  · exact h.searchOffer.ite h.discardResult
  · exact h.searchOffer.searchOffer.ite h.discardResult
  · exact h.discardResult

theorem syncEffect {u : Option Sub} {k : Key} {x : Option SyncResult} {timing : Nat} (h : LinkWork a s) :
    LinkWork a (syncEffect u k x timing s) := by
  unfold Machine.syncEffect
  split
  · exact h.takeSync.ite h.countUnused
  · exact h.countUnused

theorem idleTextEffect {u : Option Sub} {fn : Nat} {g : RawSegment} (h : LinkWork a s) :
    LinkWork a (idleTextEffect u fn g s) := by
  unfold Machine.idleTextEffect
  dsimp only
  split
  · exact h.modTxs
  · exact h.takeSegment.ite h.modTxs

theorem linkGrantEffect {u : Option Sub} {body : Octets} (h : LinkWork a s) :
    LinkWork a (linkGrantEffect u body s) := by
  unfold Machine.linkGrantEffect
  split
  · exact h.linkGrant.forward
  · exact h.forward

theorem linkReleaseEffect {u : Option Sub} {body : Octets} (h : LinkWork a s) :
    LinkWork a (linkReleaseEffect u body s) := by
  unfold Machine.linkReleaseEffect
  split
  · exact h.linkRelease.forward
  · exact h.forward

theorem loopOrderEffect {u : Option Sub} {close : Bool} (h : LinkWork a s) :
    LinkWork a (loopOrderEffect u close s) := by
  unfold Machine.loopOrderEffect
  dsimp only
  split
  · exact h.modVpb.forward
  · exact (h.checkParam.closeRadioLoop.ite h.checkParam.openRadioLoop).ite h.checkParam.modVpb.forward

theorem routeByClass {e : Bearer} {i seq : Nat} {payload : Octets} {text : Option RawSegment} (h : LinkWork a s) :
    LinkWork a (routeByClass e i seq payload text s) := by
  unfold Machine.routeByClass
  split
  · exact h.via (takeDownlinkVoice_changes ..)
  · split
    · exact h.takeSegment
    · exact h.modTxs
  · exact h.forward
  · exact h.forward

theorem downDiscard (h : LinkWork a s) : LinkWork a (downDiscard s) := h.cntBrt

theorem downTrafficEffect {u : Option Sub} {i seq : Nat} {payload : Octets} {text : Option RawSegment}
    (h : LinkWork a s) : LinkWork a (downTrafficEffect u i seq payload text s) := by
  unfold Machine.downTrafficEffect
  split
  · exact h.downDiscard
  · have huse := h.checkBearer (i := i)
    exact h.downDiscard.ite (huse.modBrt.forward.ite (huse.downDiscard.ite (huse.downDiscard.ite huse.routeByClass)))

theorem upTrafficEffect {u : Option Sub} {i : Nat} {payload : Octets} (h : LinkWork a s) :
    LinkWork a (upTrafficEffect u i payload s) := by
  unfold Machine.upTrafficEffect
  split
  · exact h.upDiscard
  · have huse := h.checkBearer (i := i)
    exact h.upDiscard.ite ((huse.modBrt.joinQueue.ite huse.upDiscard).ite (huse.joinQueue.ite huse.upDiscard))

theorem linkRequestEffect {u : Option Sub} {body : Octets} (h : LinkWork a s) :
    LinkWork a (linkRequestEffect u body s) := by
  unfold Machine.linkRequestEffect
  split
  · exact h.upDiscard
  · exact h.linkRequest

/-! ## The management requests (R69 to R70, R177, R178, R185) -/

theorem writeGlobal {tag first : Nat} {l : List GlobalWrite} (h : LinkWork a s) :
    LinkWork a (writeGlobal tag first l s) := by
  have hstore {e : GlobalEntry} : LinkWork a (storeGlobal e s) := (h.modTab.ite h.modTab.restartOcc).setWakeInstant
  unfold Machine.writeGlobal
  split
  · split
    · exact h.answer
    · exact hstore.answer
  · exact h.answer
  · exact h.answer

theorem storeParam {i : Nat} {w : ParamWrite} (h : LinkWork a s) : LinkWork a (storeParam i w s) :=
  h.modTab.paramChanged

theorem writeParam {tag first : Nat} {l : List ParamWrite} (h : LinkWork a s) :
    LinkWork a (writeParam tag first l s) := by
  unfold Machine.writeParam
  split
  · exact h.answer
  · exact (h.writeFrom fun _ _ _ => storeParam).answer

theorem writeIdentity {tag first : Nat} {l : List IdentityWrite} (h : LinkWork a s) :
    LinkWork a (writeIdentity tag first l s) := by
  unfold Machine.writeIdentity
  split
  · exact h.answer
  · have hwrite : LinkWork a (Machine.writeFrom storeIdentity first (l.filterMap identityOfWrite) s) :=
      h.writeFrom fun _ _ _ ht => ht.other rfl
    exact ((hwrite.rekey.ite hwrite).rekey.ite (hwrite.rekey.ite hwrite)).answer.ite h.answer

theorem checkBearers {p : Nat → Bool} (h : LinkWork a s) : LinkWork a (checkBearers p s) :=
  h.foldl fun _ _ ht => ht.checkBearer.ite ht

theorem followVoice (h : LinkWork a s) : LinkWork a (followVoice s) := by
  unfold Machine.followVoice
  split
  · exact h.via (endPlayout_changes ..)
  · exact h.activatePlayout
  · exact h.ite (h.via (endPlayout_changes ..)).activatePlayout

theorem writeBearers {tag first : Nat} {l : List Bearer} (h : LinkWork a s) :
    LinkWork a (writeBearers tag first l s) :=
  have hread := h.checkBearers
  have hwrite := hread.writeFrom (f := storeBearer) fun _ _ _ ht => ht.other rfl
  hread.answer.ite hwrite.followVoice.answer

theorem testBearers {tag first : Nat} {l : List Bearer} (h : LinkWork a s) : LinkWork a (testBearers tag first l s) :=
  h.answer.ite (h.answer.ite h.writeBearers)

theorem writeBearer {tag first : Nat} {l : List BearerWrite} (h : LinkWork a s) :
    LinkWork a (writeBearer tag first l s) := by
  unfold Machine.writeBearer
  split
  · exact h.answer
  · exact h.answer.ite (h.answer.ite h.checkBearers.testBearers)

theorem readEntry {x : TableId} {i : Nat} (h : LinkWork a s) : LinkWork a (readEntry x i s).1 := by
  cases x with
  | global => exact h.useGlobal
  | param => exact h.checkParam
  | identity => exact h.checkIdentity
  | screen => exact h.checkScreen
  | bearer => exact h.checkBearer
  | eventClass =>
    unfold Machine.readEntry
    dsimp only
    split
    · exact h
    · exact h.useEntry (put := setClassEntry i)
  | cell => exact h.useCell
  | claims => exact h
  | substate => exact h
  | fallback => exact h

theorem readAll {x : TableId} {l : List Nat} (h : LinkWork a s) : LinkWork a (readAll x l s).1 := by
  induction l generalizing s with
  | nil => exact h
  | cons i l ih => exact ih h.readEntry

theorem readTable {tag first n : Nat} {x : TableId} (h : LinkWork a s) : LinkWork a (readTable tag x first n s) :=
  (h.readAll.cursorMoved _).answer

theorem tableReadEffect {tag table count : Nat} {first : Option Nat} (h : LinkWork a s) :
    LinkWork a (tableReadEffect tag table first count s) := by
  unfold Machine.tableReadEffect
  split
  · exact h.answer
  · refine h.answer.ite ?_
    split
    · exact h.answer.ite h.readTable
    · exact h.readTable

theorem cellPutEffect {tag : Nat} {k : Key} {barred : Bool} {offset : Int} (h : LinkWork a s) :
    LinkWork a (cellPutEffect tag k barred offset s) := by
  refine h.answer.ite ?_
  dsimp only
  split
  case h_1 hhit => exact (h.lookup.of_fst hhit).modCell.answer
  case h_2 hmiss =>
    have hread := h.lookup.of_fst hmiss
    split
    case h_1 htaken => exact (hread.allocate.of_fst htaken).modCell.answer
    case h_2 hrefused => exact (hread.allocate.of_fst hrefused).answer

theorem cellDropEffect {tag : Nat} {k : Key} (h : LinkWork a s) : LinkWork a (cellDropEffect tag k s) := by
  refine h.answer.ite ?_
  split
  case h_1 hmiss => exact (h.lookup.of_fst hmiss).answer
  case h_2 hhit => exact (h.lookup.of_fst hhit).answer.ite (h.lookup.of_fst hhit).setCell.answer

theorem attach {u : Sub} {k : Option Key} (h : LinkWork a s) : LinkWork a (attach u k s) := by
  unfold Machine.attach
  split
  · exact h.modSub.insertClaim
  · exact h.modSub.startSearch

theorem subAttachEffect {tag : Nat} {u : Option Sub} {k : Option Key} (h : LinkWork a s) :
    LinkWork a (subAttachEffect tag u k s) := by
  unfold Machine.subAttachEffect
  split
  · exact h.answer
  · exact h.answer.ite (h.answer.ite h.attach.answer)

theorem subDetachEffect {tag : Nat} {u : Option Sub} (h : LinkWork a s) : LinkWork a (subDetachEffect tag u s) := by
  unfold Machine.subDetachEffect
  split
  · exact h.answer
  · split
    · exact h.answer
    · exact h.answer
    · exact h.detach.answer

theorem clearCounters (h : LinkWork a s) : LinkWork a (clearCounters s) := (h.counted fun _ => {}).other rfl

theorem statsTakeEffect {tag clear : Nat} (h : LinkWork a s) : LinkWork a (statsTakeEffect tag clear s) :=
  have hread := h.useGlobal
  have hclear := hread.clearCounters.ite hread
  h.answer.ite (hclear.restartOcc.ite hclear).answer

/-! ## The end of a command -/

/-! ## The other rows -/

theorem sleepTick (h : LinkWork a s) : LinkWork a (sleepTick s) :=
  have hdog := h.modFtb.runWatchdog
  have hframe := hdog.boundary.ite hdog
  hframe.powerOn.ite hframe

theorem idleStep (h : LinkWork a s) : LinkWork a (idleStep s) := h.takeNotice.ite h.sleepTick

theorem groupExpiryEffect {i : Nat} (h : LinkWork a s) : LinkWork a (groupExpiryEffect i s) := by
  unfold Machine.groupExpiryEffect
  split
  · split
    · exact h.expireGroup.ite h
    · exact h
  · exact h

theorem rejectedEffect {l : Octets} (h : LinkWork a s) : LinkWork a (rejectedEffect l s) :=
  (h.counted _).ite ((h.counted _).ite h)

theorem writeScreen {tag first : Nat} {l : List (BitVec 16)} (h : LinkWork a s) :
    LinkWork a (writeScreen tag first l s) := by
  unfold Machine.writeScreen
  split
  · exact h.answer
  · exact (h.writeFrom (f := storeScreen) fun _ _ _ ht => ht.other rfl).answer

theorem writeEventClass {tag first : Nat} {l : List (Option EventClass)} (h : LinkWork a s) :
    LinkWork a (writeEventClass tag first l s) := by
  unfold Machine.writeEventClass
  split
  · exact h.answer
  · exact (h.writeFrom (f := storeClass) fun _ _ _ ht => ht.other rfl).answer.ite h.answer

theorem textTakeEffect {tag : Nat} (h : LinkWork a s) : LinkWork a (textTakeEffect tag s) := by
  unfold Machine.textTakeEffect
  split
  · exact h.answer
  · split
    · exact h.answer
    · exact ((h.modTxs.via (removeGroup_changes ..)).cntTxs.via (watermarkTest_changes _)).answer

theorem voiceLoopEffect {tag : Nat} {x : Option Bool} (h : LinkWork a s) : LinkWork a (voiceLoopEffect tag x s) := by
  cases x with
  | none => exact h.answer
  | some b => exact (h.ite h.modVpb.post).answer

theorem checkInjectEffect {tag table i n : Nat} (h : LinkWork a s) : LinkWork a (checkInjectEffect tag table i n s) := by
  unfold Machine.checkInjectEffect
  split
  · exact h.answer
  · refine h.answer.ite (h.answer.ite (h.answer.ite (h.answer.ite ?_)))
    exact ((h.via (spoil_changes ..)).counted _).answer

theorem malformedEffect {tag code : Nat} (h : LinkWork a s) : LinkWork a (malformedEffect tag code s) :=
  (h.counted _).responded _

/-! ## The end of a command -/

theorem of_finish (h : LinkWork a s) (ht : finish s = .next t) : LinkWork a t := by
  obtain rfl : pump s = t := Host.Outcome.next.inj ht
  exact h.chosen

/-- A frame that arrives while the link is DOWN is only counted (R174). -/
theorem of_onAl {f : State → State} (h : LinkWork a s) (hf : LinkWork a (f s)) (ht : onAl s f = .next t) : LinkWork a t := by
  unfold onAl at ht
  split at ht
  · exact hf.of_finish ht
  · obtain rfl := Host.Outcome.next.inj ht
    exact h.counted _

end LinkWork

/-- The commands that change the link's state, end a transmission or reset the block (R34, R173, R175, R179). -/
def ownsLink : Instr → Bool
  | .powerOnReset => true
  | .linkReadyChange _ => true
  | .alTransmitDone => true
  | .warmReset _ => true
  | _ => false

/-- Every other command does on the link what `LinkWork` says, and no more: arm by arm. -/
theorem exec_linkWork {c : Instr} (ht : exec c s = .next t) (hc : ownsLink c = false) : LinkWork s t := by
  have h : LinkWork s s := .refl
  cases c with
  | powerOnReset => cases hc
  | linkReadyChange x => cases hc
  | alTransmitDone => cases hc
  | warmReset tag => cases hc
  | sleepBoundary =>
    refine LinkWork.of_finish ?_ ht
    split
    · exact h.frameElapses
    · exact h
  | frameMark fn => exact h.takeMark.of_finish ht
  | ready => exact h.takeReady.of_finish ht
  | wakeInstant => exact (h.via (wakeInstantEffect_changes s)).of_finish ht
  | markWatchdogExpiry => exact h.markWatchdogEffect.of_finish ht
  | warmUpFailure => exact h.warmUpFailureEffect.of_finish ht
  | connectGuardExpiry u => exact (h.connectTimeout.ite h).of_finish ht
  | handoverGuardExpiry => exact h.hoGuardExpiryEffect.of_finish ht
  | reacquireBudgetSpent u => exact h.reacquireSpentEffect.of_finish ht
  | groupExpiry i => exact h.groupExpiryEffect.of_finish ht
  | targetDamageNotice => exact (h.takeNotice.ite h).of_finish ht
  | codecPeriod payload => exact (h.via (takeCodecFrame_changes payload s)).pull.of_finish ht
  | page u fn items => exact h.pageEffect.of_finish ht
  | summary k tCell g area barred => exact h.summaryEffect.of_finish ht
  | measReport u fn cells => exact h.reportEffect.of_finish ht
  | acqResult r => exact h.acqEffect.of_finish ht
  | syncStatus u k status timing => exact h.syncEffect.of_finish ht
  | idleText u fn g => exact h.idleTextEffect.of_finish ht
  | linkGrant u body => exact h.linkGrantEffect.of_finish ht
  | linkRelease u body => exact h.linkReleaseEffect.of_finish ht
  | handoverOrder u target guard => exact h.takeOrder.of_finish ht
  | loopOrder u close => exact h.loopOrderEffect.of_finish ht
  | downlinkControlOther u code body => exact h.forward.of_finish ht
  | downlinkTraffic u i seq payload text => exact h.downTrafficEffect.of_finish ht
  | alFrameRejected l => exact h.of_onAl h.rejectedEffect ht
  | uplinkTraffic u i payload => exact h.of_onAl h.upTrafficEffect ht
  | linkRequest u body => exact h.of_onAl h.linkRequestEffect ht
  | uplinkControlOther u code body => exact h.of_onAl (h.via (upControlEffect_changes u code body s)) ht
  | tableWriteGlobal tag first l => exact h.of_onAl h.writeGlobal ht
  | tableWriteParam tag first l => exact h.of_onAl h.writeParam ht
  | tableWriteIdentity tag first l => exact h.of_onAl h.writeIdentity ht
  | tableWriteScreen tag first l => exact h.of_onAl h.writeScreen ht
  | tableWriteBearer tag first l => exact h.of_onAl h.writeBearer ht
  | tableWriteEventClass tag first l => exact h.of_onAl h.writeEventClass ht
  | tableWriteNoSuchTable tag table => exact h.of_onAl h.answer ht
  | tableRead tag table first count => exact h.of_onAl h.tableReadEffect ht
  | cellPut tag k barred offset => exact h.of_onAl h.cellPutEffect ht
  | cellDrop tag k => exact h.of_onAl h.cellDropEffect ht
  | subAttach tag u k => exact h.of_onAl h.subAttachEffect ht
  | subDetach tag u => exact h.of_onAl h.subDetachEffect ht
  | textTake tag => exact h.of_onAl h.textTakeEffect ht
  | statsTake tag clear => exact h.of_onAl h.statsTakeEffect ht
  | voiceLoop tag x => exact h.of_onAl h.voiceLoopEffect ht
  | checkInject tag table i n => exact h.of_onAl h.checkInjectEffect ht
  | malformedRequest tag code => exact h.of_onAl h.malformedEffect ht

end

/-! ## WAKE_REQ and the urgent records (R180, R181) -/

theorem wakeInv_iff (s : State) : WakeInv s ↔ s.alc.wakeReq = wakeLevel s.alc := by
  refine Iff.trans ?_ Bool.eq_iff_iff.symm
  simp [WakeInv, wakeLevel]

theorem setWake_wakeInv (s : State) : WakeInv (setWake s) := (wakeInv_iff _).mpr rfl

theorem mem_of_removeFirstRoutine {l l' : List EventRec} {e : EventRec} (hl : removeFirstRoutine l = some l')
    (he : e ∈ l) (hcls : e.cls = .urgent) : e ∈ l' := by
  induction l generalizing l' with
  | nil => exact absurd he List.not_mem_nil
  | cons x l ih =>
    rw [removeFirstRoutine] at hl
    split at hl
    case isTrue hx =>
      obtain rfl := Option.some.inj hl
      refine (List.mem_cons.mp he).resolve_left fun hex => ?_
      rw [← hex, hcls] at hx
      exact EventClass.noConfusion hx
    case isFalse =>
      obtain ⟨l'', hl'', rfl⟩ := Option.map_eq_some_iff.mp hl
      exact List.mem_cons.mpr ((List.mem_cons.mp he).imp_right (ih hl''))

/-- What gives way to an urgent record is a routine one (R180, case 5). -/
theorem mem_of_displaceRoutine {a : Alc} {l : List EventRec} {e : EventRec} (hl : displaceRoutine a = some l)
    (he : e ∈ a.events) (hcls : e.cls = .urgent) : e ∈ l := by
  unfold displaceRoutine at hl
  split at hl
  · split at hl
    case h_1 => cases hl
    case h_2 x rest hevents =>
      obtain ⟨l', hl', rfl⟩ := Option.map_eq_some_iff.mp hl
      rw [hevents] at he
      exact List.mem_cons.mpr ((List.mem_cons.mp he).imp_right fun hel => mem_of_removeFirstRoutine hl' hel hcls)
  · exact mem_of_removeFirstRoutine hl he hcls

/-- A record offered to the queue is only counted, or the queue changes, keeps its urgent records, and WAKE_REQ is set anew. -/
theorem enqueueEvent_cases (e : EventRec) (s : State) :
    (∃ f, enqueueEvent e s = s.cntAlc f) ∨
      ∃ f : Alc → Alc, enqueueEvent e s = setWake (s.modAlc f) ∧
        ∀ r ∈ s.alc.events, r.cls = .urgent → r ∈ (f s.alc).events := by
  have happend : ∀ r ∈ s.alc.events, r.cls = .urgent → r ∈ s.alc.events ++ [e] :=
    fun r hr _ => List.mem_append_left _ hr
  unfold enqueueEvent
  split
  · exact .inl ⟨_, rfl⟩
  · split
    · exact .inr ⟨_, rfl, happend⟩
    · exact .inl ⟨_, rfl⟩
  · split
    · exact .inr ⟨_, rfl, happend⟩
    · split
      case h_1 l hl =>
        refine .inr ⟨fun a => { a with
          events := l ++ [e], cnt := { a.cnt with eventsDisplaced := satInc a.cnt.eventsDisplaced } }, rfl, ?_⟩
        exact fun r hr hcls => List.mem_append_left _ (mem_of_displaceRoutine hl hr hcls)
      case h_2 => exact .inl ⟨_, rfl⟩

/-- What a command that does not own the link keeps: WAKE_REQ follows the queue, and no urgent record is lost. -/
structure UrgentKept (s t : State) : Prop where
  wakeInv : WakeInv s → WakeInv t
  mem : ∀ e ∈ s.alc.events, e.cls = .urgent → e ∈ t.alc.events

theorem UrgentKept.trans {s t u : State} (h : UrgentKept s t) (k : UrgentKept t u) : UrgentKept s u :=
  ⟨fun hs => k.wakeInv (h.wakeInv hs), fun e he hcls => k.mem e (h.mem e he hcls) hcls⟩

/-- The link's state, the queue and WAKE_REQ are as they were. -/
theorem UrgentKept.of_eq {s t : State} (hup : t.alc.up = s.alc.up) (hevents : t.alc.events = s.alc.events)
    (hwake : t.alc.wakeReq = s.alc.wakeReq) : UrgentKept s t := by
  refine ⟨fun hs => ?_, fun e he _ => hevents ▸ he⟩
  unfold WakeInv
  rwa [hup, hevents, hwake]

theorem enqueueEvent_urgentKept (e : EventRec) (s : State) : UrgentKept s (enqueueEvent e s) := by
  obtain ⟨f, hcount⟩ | ⟨f, hset, hmem⟩ := enqueueEvent_cases e s
  · rw [hcount]
    exact .of_eq rfl rfl rfl
  · rw [hset]
    exact ⟨fun _ => setWake_wakeInv _, hmem⟩

theorem addResponse_urgentKept (r : Response) (s : State) : UrgentKept s (addResponse r s) := by
  unfold addResponse
  split <;> exact .of_eq rfl rfl rfl

theorem forward_urgentKept (f : Forward) {s : State} (hup : s.alc.up = true) : UrgentKept s (forward f s) := by
  rw [forward, if_pos hup]
  split <;> exact .of_eq rfl rfl rfl

theorem pump_urgentKept (s : State) : UrgentKept s (pump s) := by
  obtain ⟨-, ⟨-, hup, hevents, hwake, -⟩, -⟩ := pump_trails s
  exact .of_eq hup hevents hwake

theorem LinkWork.urgentKept {s t : State} (h : LinkWork s t) : UrgentKept s t := by
  induction h with
  | refl => exact .of_eq rfl rfl rfl
  | other _ halc ih => exact ih.trans (.of_eq (by rw [halc]) (by rw [halc]) (by rw [halc]))
  | enqueued e _ ih => exact ih.trans (enqueueEvent_urgentKept e _)
  | responded r _ ih => exact ih.trans (addResponse_urgentKept r _)
  | forwardedUp f _ hup ih => exact ih.trans (forward_urgentKept f hup)
  | counted _ _ ih => exact ih.trans (.of_eq rfl rfl rfl)
  | cursorMoved _ _ ih => exact ih.trans (.of_eq rfl rfl rfl)
  | chosen _ ih => exact ih.trans (pump_urgentKept _)

theorem pump_up (s : State) : (pump s).alc.up = s.alc.up := by
  obtain ⟨-, ⟨-, hup, -⟩, -⟩ := pump_trails s
  exact hup

/-! ## The commands that own the link (R34, R173, R175, R179) -/

theorem linkReadyEffect_wakeInv {asserted : Bool} {s : State} (h : WakeInv s) : WakeInv (linkReadyEffect asserted s) := by
  unfold linkReadyEffect
  dsimp only
  split
  · exact setWake_wakeInv _
  · exact setWake_wakeInv _
  · exact h

/-- A level equal to the present one is no change. -/
theorem linkReadyEffect_urgentKept {s : State} (hs : s.alc.up = false) : UrgentKept s (linkReadyEffect false s) := by
  have heffect : linkReadyEffect false s = s.modAlc (fun a => { a with linkReady := false }) := by
    simp [linkReadyEffect, hs]
  rw [heffect]
  exact .of_eq rfl rfl rfl

theorem linkReadyEffect_up {s : State} (hs : s.alc.up = false) : (linkReadyEffect true s).alc.up = true := by
  simp [linkReadyEffect, hs, linkUp, setWake]

theorem transmitDone_wakeInv {s : State} (h : WakeInv s) : WakeInv (transmitDone s) := by
  unfold transmitDone
  split
  · exact h
  · dsimp only
    split
    · exact setWake_wakeInv _
    · exact h

theorem onAl_wakeInv {f : State → State} {s t : State} (h : WakeInv s) (hf : WakeInv (f s)) (ht : onAl s f = .next t) :
    WakeInv t := by
  unfold onAl at ht
  split at ht
  · obtain rfl : pump (f s) = t := Host.Outcome.next.inj ht
    exact (pump_urgentKept _).wakeInv hf
  · obtain rfl := Host.Outcome.next.inj ht
    exact h

/-- Every command keeps WAKE_REQ following the queue: those that own the link set it anew. -/
theorem exec_wakeInv {c : Instr} {s t : State} (h : WakeInv s) (ht : exec c s = .next t) : WakeInv t := by
  have hfinish {u : State} (hu : WakeInv u) (ht : finish u = .next t) : WakeInv t := by
    obtain rfl : pump u = t := Host.Outcome.next.inj ht
    exact (pump_urgentKept u).wakeInv hu
  cases c with
  | powerOnReset => exact hfinish (u := powerOnEffect s) (setWake_wakeInv _) ht
  | linkReadyChange x => exact hfinish (linkReadyEffect_wakeInv h) ht
  | alTransmitDone => exact hfinish (transmitDone_wakeInv h) ht
  | warmReset tag => exact onAl_wakeInv (f := warmEffect tag) h (setWake_wakeInv _) ht
  | _ => exact (exec_linkWork ht rfl).urgentKept.wakeInv h

/-- A command that finds the link DOWN with nothing in transmission, and leaves it DOWN, keeps the urgent records, a power-on
reset apart: the end of a transmission finds none, and a WARM_RESET is discarded (R174). -/
theorem exec_urgentKept {c : Instr} {s t : State} (ht : exec c s = .next t) (hs : s.alc.up = false) (htx : s.alc.tx = none)
    (hc : c ≠ .powerOnReset) (hdown : t.alc.up = false) : UrgentKept s t := by
  cases c with
  | powerOnReset => exact absurd rfl hc
  | linkReadyChange x =>
    obtain rfl : pump (linkReadyEffect x s) = t := Host.Outcome.next.inj ht
    cases x with
    | false =>
      refine .trans ?_ (pump_urgentKept _)
      exact linkReadyEffect_urgentKept hs
    | true => exact absurd (linkReadyEffect_up hs) (by rw [← pump_up, hdown]; decide)
  | alTransmitDone =>
    obtain rfl : pump (transmitDone s) = t := Host.Outcome.next.inj ht
    rw [transmitDone, htx]
    exact pump_urgentKept s
  | warmReset tag =>
    obtain rfl : s.cntAlc _ = t := Host.Outcome.next.inj ((if_neg (by simp [hs])).symm.trans ht)
    exact .of_eq rfl rfl rfl
  | _ => exact (exec_linkWork ht rfl).urgentKept

/-- Settles O7: a step is a command or the passing of a tick, and either does on the link what the lemmas above say. -/
theorem wakeReqFollowsUrgentEvents : Obligations.WakeReqFollowsUrgentEvents := by
  unfold Obligations.WakeReqFollowsUrgentEvents
  refine ⟨fun s t hs ht => ?_, fun s t htransmit hs hhead ht hdown => ?_⟩
  · unfold step at ht
    split at ht
    · exact ((LinkWork.refl.idleStep).of_finish ht).urgentKept.wakeInv hs
    case h_2 c l _ => exact exec_wakeInv (s := { s with pending := l }) hs ht
  · obtain ⟨-, hquiet, -⟩ := htransmit
    obtain ⟨htx, -⟩ := hquiet hs
    unfold step at ht
    split at ht
    · exact ((LinkWork.refl.idleStep).of_finish ht).urgentKept.mem
    case h_2 c l hpending =>
      have hc : c ≠ .powerOnReset := fun h => hhead (by rw [hpending, h]; rfl)
      exact (exec_urgentKept (s := { s with pending := l }) ht hs htx hc hdown).mem

end Sys2Proof.Machine
end

section
/-! CHECK_INJECT (R184, O56). Its refusals are tested in a fixed order; past them the entry's check code alone is written. -/

namespace Sys2Proof.Machine

-- One lemma at a time: elaborated together they would each take a thread.
set_option Elab.async false

theorem exec_checkInject {s : State} (tag table i n : Nat) (hup : s.alc.up = true) :
    exec (.checkInject tag table i n) s = .next (pump (checkInjectEffect tag table i n s)) := if_pos hup

/-- A request that comes to an answer alone: the response is made and the rest of the block stays. -/
theorem checkInject_answers {tag table i n : Nat} {st : Status} {s : State} (hup : s.alc.up = true) (hst : st ≠ .malformed)
    (heffect : checkInjectEffect tag table i n s = answer .checkInject tag st .none s) :
    ∃ t, exec (.checkInject tag table i n) s = .next t ∧
      answered { tag := tag, code := 10, status := st, payload := .none } s.alc.cnt s t ∧ onlyChanges [.alc] s t := by
  refine ⟨_, exec_checkInject tag table i n hup, ?_⟩
  rw [heffect]
  exact ⟨answer_answers s hst, answer_onlyChanges .checkInject tag st .none s⟩

/-! ## The tables that may be injected -/

theorem code_of_ofCode {table : Nat} {x : TableId} (hx : TableId.ofCode table = some x) : x.code = table := by
  unfold TableId.ofCode at hx
  split at hx <;> cases hx <;> rfl

theorem ofCode_of_le {table : Nat} (h : table ≤ 6) : ∃ x, TableId.ofCode table = some x :=
  match table, h with
  | 0, _ => ⟨_, rfl⟩
  | 1, _ => ⟨_, rfl⟩
  | 2, _ => ⟨_, rfl⟩
  | 3, _ => ⟨_, rfl⟩
  | 4, _ => ⟨_, rfl⟩
  | 5, _ => ⟨_, rfl⟩
  | 6, _ => ⟨_, rfl⟩

/-- Codes 0 to 6 name the tables that may be injected. -/
theorem injectable_of_le {table : Nat} {x : TableId} (h : table ≤ 6) (hx : TableId.ofCode table = some x) :
    injectable x = true := decide_eq_true ((code_of_ofCode hx).symm ▸ h)

theorem not_injectable_of_lt {table : Nat} {x : TableId} (h : 6 < table) (hx : TableId.ofCode table = some x) :
    injectable x = false := decide_eq_false (by rw [code_of_ofCode hx]; exact Nat.not_le_of_lt h)

theorem eq_eventClass_iff {x : TableId} : x = .eventClass ↔ x.code = 5 := by cases x <;> decide

theorem eq_cell_iff {x : TableId} : x = .cell ↔ x.code = 6 := by cases x <;> decide

theorem injectLast_eq (x : TableId) : injectLast x = if x.code = 5 then 22 else x.size := by
  simp only [injectLast, eq_eventClass_iff]

/-- The damaged mark of an addressed entry, table by table; a CELL entry has none. -/
theorem entryDamaged_eq {table : Nat} {x : TableId} (i : Nat) (s : State) (hx : TableId.ofCode table = some x) :
    entryDamaged x i s = [s.tab.global.damaged, (s.tab.param.get (if i = 0 then .A else .B)).damaged, (identityAt s i).damaged,
      (screenAt s i).damaged, (bearerAt s i).damaged, (classEntry s i).damaged].getD table false := by
  obtain rfl := code_of_ofCode hx
  cases x <;> rfl

/-! ## The request's cases, in the order in which they are tested -/

section
variable {tag table i n : Nat} {x : TableId} {s : State}

theorem checkInject_noSuchTable (h : 6 < table) :
    checkInjectEffect tag table i n s = answer .checkInject tag .noSuchTable .none s := by
  unfold checkInjectEffect
  split
  case h_1 => rfl
  case h_2 x hx => exact if_pos (not_injectable_of_lt h hx)

/-- For a table that may be injected, the tests of the positions and the index, of an invalid cell and of the damaged mark. -/
theorem checkInject_cases (h : table ≤ 6) (hx : TableId.ofCode table = some x) :
    checkInjectEffect tag table i n s =
      if n ∉ [1, 2] ∨ ¬ i < (if table = 5 then 22 else x.size) then answer .checkInject tag .outOfRange .none s
      else if table = 6 ∧ (cellAt s i).valid = false then answer .checkInject tag .empty .none s
      else if entryDamaged x i s = true then answer .checkInject tag .wrongState .none s
      else answer .checkInject tag .done .none
        ((spoil x i (if n = 1 then .one else .two) s).cntAlc (fun c => { c with injections := satInc c.injections })) := by
  unfold checkInjectEffect
  rw [hx]
  simp only [injectable_of_le h hx, injectLast_eq, code_of_ofCode hx, eq_cell_iff, Bool.true_eq_false, if_false,
    List.mem_cons, List.not_mem_nil, or_false, not_or, Nat.not_lt, ne_eq]

/-- With the positions and the index in range. -/
theorem checkInject_inRange (h : table ≤ 6) (hx : TableId.ofCode table = some x) (hn : n ∈ [1, 2])
    (hi : i < if table = 5 then 22 else x.size) :
    checkInjectEffect tag table i n s =
      if table = 6 ∧ (cellAt s i).valid = false then answer .checkInject tag .empty .none s
      else if entryDamaged x i s = true then answer .checkInject tag .wrongState .none s
      else answer .checkInject tag .done .none
        ((spoil x i (if n = 1 then .one else .two) s).cntAlc (fun c => { c with injections := satInc c.injections })) := by
  rw [checkInject_cases h hx, if_neg (not_or.mpr ⟨not_not_intro hn, not_not_intro hi⟩)]

end

/-! ## What the injection writes -/

/-- The check code of the addressed entry reads `c`; every table's content and marks, and the rest of the tables, stay. -/
structure Spoiled (table i : Nat) (c : Check) (s t : State) : Prop where
  global_eq : t.tab.global = if table = 0 then { s.tab.global with check := c } else s.tab.global
  param_eq : t.tab.param = if table = 1 then s.tab.param.set (if i = 0 then .A else .B)
    { s.tab.param.get (if i = 0 then .A else .B) with check := c } else s.tab.param
  identity_eq : t.tab.identity = if table = 2 then s.tab.identity.set i { identityAt s i with check := c } else s.tab.identity
  screen_eq : t.tab.screen = if table = 3 then s.tab.screen.set i { screenAt s i with check := c } else s.tab.screen
  bearer_eq : t.tab.bearer = if table = 4 then s.tab.bearer.set i { bearerAt s i with check := c } else s.tab.bearer
  eventClass_eq : t.tab.eventClass =
    if table = 5 then s.tab.eventClass.set i { classEntry s i with check := c } else s.tab.eventClass
  ctb_eq : t.ctb = if table = 6 then { s.ctb with cells := s.ctb.cells.set i { cellAt s i with check := c } } else s.ctb

theorem spoil_spoiled {table : Nat} {x : TableId} (i : Nat) (c : Check) (f : AlcCounters → AlcCounters) (s : State)
    (hx : TableId.ofCode table = some x) : Spoiled table i c s ((spoil x i c s).cntAlc f) := by
  obtain rfl := code_of_ofCode hx
  cases x <;> exact ⟨rfl, rfl, rfl, rfl, rfl, rfl, rfl⟩

/-- An answer leaves the tables as they are. -/
theorem Spoiled.answer {table i tag : Nat} {c : Check} {q : Request} {st : Status} {p : Payload} {s t : State}
    (h : Spoiled table i c s t) : Spoiled table i c s (pump (answer q tag st p t)) := by
  have hkept (q' : Part) (hq : q' ∉ [Part.alc] := by decide) := answer_onlyChanges q tag st p t q' hq
  exact ⟨(hkept .global).trans h.global_eq, (hkept .param).trans h.param_eq, (hkept .identity).trans h.identity_eq,
    (hkept .screen).trans h.screen_eq, (hkept .bearer).trans h.bearer_eq, (hkept .eventClass).trans h.eventClass_eq,
    (hkept .ctb).trans h.ctb_eq⟩

/-- Counters moved before the response, that of the lost responses apart, are those that the answer starts from. -/
theorem answered_of_counted {r : Response} {k : AlcCounters} {s t u : State} (halc : t.alc = { s.alc with cnt := k })
    (hk : k.responsesLost = s.alc.cnt.responsesLost) (h : answered r t.alc.cnt t u) : answered r k s u := by
  simpa only [answered, responded, linkQuiet, responseTrail, forwardTrail, halc, hk] using h

/-- The injection (R184): the check code is written, the injection counted, and the response made. -/
theorem checkInject_done {tag table i n : Nat} {x : TableId} {c : Check} {s : State} (hup : s.alc.up = true) (h : table ≤ 6)
    (hx : TableId.ofCode table = some x) (hn : n ∈ [1, 2]) (hi : i < if table = 5 then 22 else x.size)
    (hvalid : table = 6 → (cellAt s i).valid = true) (hdamaged : entryDamaged x i s = false)
    (hc : c = if n = 1 then .one else .two) :
    ∃ t, exec (.checkInject tag table i n) s = .next t ∧
      answered { tag := tag, code := 10, status := .done, payload := .none }
        { s.alc.cnt with injections := satInc s.alc.cnt.injections } s t ∧
      Spoiled table i c s t ∧
      onlyChanges [.global, .param, .identity, .screen, .bearer, .eventClass, .ctb, .alc] s t := by
  have heffect : checkInjectEffect tag table i n s = answer .checkInject tag .done .none
      ((spoil x i c s).cntAlc (fun c => { c with injections := satInc c.injections })) := by
    rw [checkInject_inRange h hx hn hi, if_neg (fun ⟨htable, hinvalid⟩ => by simp [hvalid htable] at hinvalid),
      if_neg (by simp [hdamaged]), ← hc]
  have halc : (spoil x i c s).alc = s.alc := (spoil_changes x i c s).keep (.part .alc) (by decide)
  refine ⟨_, exec_checkInject tag table i n hup, ?_, ?_,
    (changes.step (pump_changes _) (by decide) (checkInjectEffect_changes tag table i n s)).onlyParts (by decide)⟩
  · rw [heffect]
    exact answered_of_counted (by simp [State.cntAlc, halc]) rfl (answer_answers _ (by decide))
  · rw [heffect]
    exact (spoil_spoiled i c _ s hx).answer

/-- Settles O56, by the cases of the request in the order in which they are tested. -/
theorem checkInjectSpoils : Obligations.CheckInjectSpoils := by
  unfold Obligations.CheckInjectSpoils
  refine ⟨fun tag table i n s hup htable => ?_, fun tag table i n s hup htable hrange => ?_,
    fun tag table i n s hup htable hn hi hvalid => ?_, fun tag table i n s hup htable hn hi hdamaged => ?_,
    fun tag table i n c s hup htable hn hi hvalid hdamaged hc => ?_⟩
  · exact checkInject_answers hup (by decide) (checkInject_noSuchTable htable)
  · obtain ⟨x, hx⟩ := ofCode_of_le htable
    refine checkInject_answers hup (by decide) ?_
    rw [checkInject_cases htable hx, if_pos (hrange.imp_right fun h => ?_)]
    simpa [hx] using h
  · subst htable
    refine checkInject_answers hup (by decide) ?_
    rw [checkInject_inRange (x := .cell) (by decide) rfl hn hi, if_pos ⟨rfl, hvalid⟩]
  · have hle : table ≤ 6 := Nat.le_succ_of_le htable
    obtain ⟨x, hx⟩ := ofCode_of_le hle
    refine checkInject_answers hup (by decide) ?_
    rw [checkInject_inRange hle hx hn (by simpa [hx] using hi), if_neg (fun h => absurd htable (by omega)),
      if_pos ((entryDamaged_eq i s hx).trans hdamaged)]
  · obtain ⟨x, hx⟩ := ofCode_of_le htable
    obtain ⟨t, ht, hanswered, hspoiled, honly⟩ := checkInject_done (tag := tag) hup htable hx hn (by simpa [hx] using hi)
      hvalid ((entryDamaged_eq i s hx).trans hdamaged) hc
    exact ⟨t, ht, hanswered, hspoiled.global_eq, hspoiled.param_eq, hspoiled.identity_eq, hspoiled.screen_eq,
      hspoiled.bearer_eq, hspoiled.eventClass_eq, hspoiled.ctb_eq, honly⟩

end Sys2Proof.Machine
end
